-- ==== Sys2Proof/Word.lean ====
section
/-! DEFINITION. The words of SEDIS-FSD: bytes, command words, samples, channels, sample widths, byte orders and the
80-byte header view (spec 00_scope R7 to R11, 10_state R30, 30_encoding R82, R101, 40_header_parser R134). -/

namespace Sys2Proof

/-- A byte is 8 bits, bit 0 the least significant (R8). -/
abbrev Byte := BitVec 8

/-- A byte sequence: a chunk, the reassembly buffer, a frame (R9). -/
abbrev Bytes := List Byte

/-- One word of the command port, 11 bits: `op[10:9] last[8] data[7:0]` (R101). -/
abbrev CmdWord := BitVec 11

/-- A ChannelSample: one decoded signed 32-bit integer, held as its two's complement image (R11). -/
abbrev Sample := BitVec 32

/-- One of the six physical channels.  The value `i` stands for channel number `i + 1`, so `i` is also the channel's
bit of ChannelBitMap (R86, R115: a model's type for `c` has six values). -/
abbrev Channel := Fin 6

/-- The byte width `W` of one sample, 3 or 4 (R112). -/
inductive Width where
  | three
  | four
deriving DecidableEq, Repr, Inhabited

/-- The two values of `NATIVE_ORDER` (R7). -/
inductive ByteOrder where
  | little
  | big
deriving DecidableEq, Repr, Inhabited

/-- A header `H`: exactly 80 bytes.  R134: HP is defined on at least 80 bytes and never reads beyond offset 79; a model
makes the length a precondition of the type. -/
structure Header where
  /-- the 80 raw bytes, offset 0 first -/
  raw : Bytes
  /-- the length precondition of R134 -/
  size : raw.length = 80
deriving DecidableEq, Repr

end Sys2Proof
end

