-- ==== Sys2Proof/Config.lean ====
section
/-! DEFINITION. The configuration of an instance of the block (spec 00_scope R7, 10_state R33, 70_reset_and_hazards
R303) and the parameters the spec leaves open (92_eei_decisions "Parameters left OPEN", 93_implementation_defined
U1, U9, U15).  The configuration is plain data, held in a field of State that no operation writes (R246; log entry 6).
A constant here without a body is an open parameter (log entry 7) or a free value (log entries 8 and 28): nothing can
evaluate it. -/

namespace Sys2Proof

/-- `W_OF_BIT7`, a function from the value of ConfigWord bit 7 to a sample width, as its two values (R7). -/
structure WidthMap where
  /-- the width that `cfg_w = 0` selects -/
  zero : Width
  /-- the width that `cfg_w = 1` selects -/
  one : Width
deriving DecidableEq, Repr, Inhabited

/-- A positive rational, positive by construction: it stands for `(numPred + 1) / (denPred + 1)`. -/
structure PosRat where
  numPred : Nat
  denPred : Nat
deriving DecidableEq, Repr, Inhabited

/-- `INTERVAL_LUT`: a positive rational number of milliseconds for each value of the pair
(width bit 7, rate bit 4) (R7, R130). -/
structure IntervalLut where
  w0r0 : PosRat
  w0r1 : PosRat
  w1r0 : PosRat
  w1r1 : PosRat
deriving DecidableEq, Repr, Inhabited

/-- `ROTATION_MODE`, read by the sink only (R7, R231). -/
inductive RotationMode where
  | singleFile
  | multiFile
deriving DecidableEq, Repr, Inhabited

/-- The configuration entries of R33 that go around the block to the sample sink.  No operation reads one. -/
structure SinkConfig where
  rotationMode  : RotationMode
  networkCode   : String
  stationCode   : String
  locationCode  : String
  filenameBase  : String
  /-- the channel-name table; `none` is "unset" (R230) -/
  channelNames  : Option (List String)
  recordLength  : Nat
  compression   : Nat
deriving DecidableEq, Repr, Inhabited

/-- The configuration of one instance (R33): the parameters the block reads, and the sink's entries. -/
structure Config where
  /-- `NATIVE_ORDER`: the byte order of BlockSamples and of 4-byte samples -/
  nativeOrder : ByteOrder
  /-- `W_OF_BIT7` -/
  wOfBit7     : WidthMap
  /-- `BUF_CAP` in bytes; `none` is infinity -/
  bufCap      : Option Nat
  /-- `INTERVAL_LUT` -/
  intervalLut : IntervalLut
  /-- the entries of R33 marked "sink" -/
  sink        : SinkConfig
deriving DecidableEq, Repr

/-- The three GPS fix sources of R125. -/
inductive GpsFix where
  | fix2D
  | fix3D
  | unknown
deriving DecidableEq, Repr, Inhabited

/-- The three classes of GPS data age of R126, and the "third result" that 93_implementation_defined U9 admits for an
age of exactly 10 s. -/
inductive GpsAge where
  | fresh
  | old
  | unavailable
  | unclassified
deriving DecidableEq, Repr, Inhabited

/-- OPEN: the integrator's `INTERVAL_LUT` (R7, U1); its values may not be assumed. -/
opaque Config.openIntervalLut : IntervalLut

/-- OPEN: the integrator's sink configuration, `ROTATION_MODE` among it (R7, D18). -/
opaque Config.openSink : SinkConfig

/-- OPEN (D22, U15): `batt_raw`, the raw battery reading inside the 7 bytes of `misc_raw`. -/
opaque Config.battRaw : Bytes → Nat

/-- OPEN (D22, U15): `temp_raw`, the raw temperature reading inside the 7 bytes of `misc_raw`. -/
opaque Config.tempRaw : Bytes → Nat

/-- OPEN (D22, R125): `gps_fix`, from the 20 bytes of `gps_raw` to a fix source. -/
opaque Config.gpsFix : Bytes → GpsFix

/-- OPEN (D22, R126): the age in seconds that the 20 bytes of `gps_raw` give, or none when no age is available. -/
opaque Config.gpsAgeSeconds : Bytes → Option Rat

/-- FREE VALUE (U9, D34): the class of an age of exactly 10 s, which the source leaves undefined.  It is a function of the
bytes the age came from (none for an age given alone), because an accessor is a pure function (R133).  Log entry 8. -/
opaque Config.gpsAgeAtTen : Bytes → GpsAge

/-- FREE VALUE: what DX.OFFSET answers for a channel that the mask does not enable, where R196 (operand: an enabled channel)
states no offset.  A function of the operands.  Log entry 28. -/
opaque Config.offsetOfDisabled : BitVec 6 → Width → Channel → Nat

/-- FREE VALUE: what DX.ADDR answers for operands beyond the ranges that R197 gives its own (`s` of a sample, `SB` of one byte,
`off` at most 20).  A function of the operands.  Log entry 28. -/
opaque Config.addrBeyondRange : Nat → Nat → Nat → Nat

/-- The configuration an instance starts with: the defaults the spec gives (R7, D4, D5, D7) and the open parameters.
Log entry 6. -/
def Config.initial : Config :=
  { nativeOrder := .little
    wOfBit7 := { zero := .three, one := .four }
    bufCap := none
    intervalLut := Config.openIntervalLut
    sink := Config.openSink }

end Sys2Proof
end

