-- ==== Sys2Proof/Syntax.lean ====
section
/-! DEFINITION. The operations of SEDIS-FSD as syntax: one constructor for each of the 50 rows of
spec/opcode_table.json (spec 30_encoding R100), with the operands that the operation's own rule names. -/

namespace Sys2Proof

/-- What a header accessor looks at (R50: HP reads BUF offsets 0 to 79 and the frame image; R134, R313: it may also be
applied from outside to any byte sequence of at least 80 bytes). -/
inductive View where
  /-- the first 80 bytes of the reassembly buffer -/
  | buf
  /-- the first 80 bytes of the frame being transcoded -/
  | frame
  /-- the first 80 bytes of a given byte sequence -/
  | bytes (h : Bytes)
deriving DecidableEq, Repr

/-- The operand of HP.BATT and HP.TEMP (R121, R122): a raw ADC reading, given, or taken from a header's `misc_raw`. -/
inductive RawSource where
  | given (raw : Nat)
  | header (v : View)
deriving DecidableEq, Repr

/-- The operand of HP.GPSAGE (R126): an age in seconds, given (`none`: no age is available), or taken from a header's
`gps_raw`. -/
inductive AgeSource where
  | given (age : Option Rat)
  | header (v : View)
deriving DecidableEq, Repr

/-- The operations, one constructor per row of the operation table, in its order (R100). -/
inductive Instr where
  -- command port
  | nop
  | pushb (d : Byte)
  | pushbL (d : Byte)
  | reset
  | rsvd
  -- frame synchronizer
  | push (chunk : Bytes)
  | fsAppend (chunk : Bytes)
  | fsWaithdr
  | fsSearch
  | fsSync0
  | fsDropk
  | fsKeeptail
  | fsFlush
  | fsLen
  | fsWaitbody
  | fsEmit
  -- header parser
  | hpMarker (v : View)
  | hpHdrsize (v : View)
  | hpWidth (v : View)
  | hpIntoff (v : View)
  | hpLowpwr (v : View)
  | hpLowrate (v : View)
  | hpCfg (v : View)
  | hpChen (v : View) (c : Channel)
  | hpChmap (v : View)
  | hpBsamples (v : View)
  | hpSbytes (v : View)
  | hpFlen (v : View)
  | hpStime (v : View)
  | hpMisc (v : View)
  | hpBatt (r : RawSource)
  | hpTemp (r : RawSource)
  | hpRevboard (v : View)
  | hpGps (v : View)
  | hpGpsfix (v : View)
  | hpGpsage (a : AgeSource)
  | hpPosdisc (v : View)
  | hpPosstr (v : View)
  | hpTail (v : View)
  | hpInterval (v : View)
  -- sample demultiplexer
  | dxTranscode (f : Bytes)
  | dxCheck (f : Bytes)
  | dxOffset (en : BitVec 6) (w : Width) (c : Channel)
  | dxAddr (slot : Nat) (sb : Nat) (off : Nat)
  | dxLoad3 (f : Bytes) (a : Nat)
  | dxSext24 (u : BitVec 24)
  | dxLoad4 (f : Bytes) (a : Nat)
  -- channel converter
  | cpCollect (c : Channel) (slot : Nat) (v : Sample)
  | cpOut (f : Bytes)
  | cpRestart
deriving DecidableEq, Repr

end Sys2Proof
end

