-- ==== Sys2Proof/Machine/Prims.lean ====
section
/-! DEFINITION. The pseudocode primitives of spec 00_scope R10, and the look-ups in the configuration's plain data. -/

namespace Sys2Proof

/-- `u8(b)`: the natural number 0 to 255 held by one byte (R10). -/
def u8 (b : Byte) : Nat := b.toNat

/-- `u16_native(b0, b1)`, `b0` the byte at the lower offset (R10). -/
def u16Native (o : ByteOrder) (b0 b1 : Byte) : Nat :=
  match o with
  | .little => u8 b0 + 256 * u8 b1
  | .big => 256 * u8 b0 + u8 b1

/-- `u24_msb(b0, b1, b2)`: `b0`, the byte at the lowest offset, is the most significant (R10, R58). -/
def u24Msb (b0 b1 b2 : Byte) : BitVec 24 :=
  BitVec.ofNat 24 (65536 * u8 b0 + 256 * u8 b1 + u8 b2)

/-- The unsigned image of a native 4-byte sample (R10, R59). -/
def u32Native (o : ByteOrder) (b0 b1 b2 b3 : Byte) : Nat :=
  match o with
  | .little => u8 b0 + 256 * u8 b1 + 65536 * u8 b2 + 16777216 * u8 b3
  | .big => 16777216 * u8 b0 + 65536 * u8 b1 + 256 * u8 b2 + u8 b3

/-- `s32_native(b0, b1, b2, b3)`: the two's complement integer with that unsigned image (R10). -/
def s32Native (o : ByteOrder) (b0 b1 b2 b3 : Byte) : Sample :=
  BitVec.ofNat 32 (u32Native o b0 b1 b2 b3)

/-- `sext_24(u)`: `u` when `u < 2^23`, else `u - 2^24` (R10, R199). -/
def sext24 (u : BitVec 24) : Sample :=
  if u.toNat < 8388608 then BitVec.ofInt 32 (u.toNat : Int)
  else BitVec.ofInt 32 ((u.toNat : Int) - 16777216)

/-- `MemRead(F, a, n)`: the `n` bytes from offset `a`, defined only when `a + n` is at most the length of `F` (R10). -/
def memRead (f : Bytes) (a n : Nat) : Option Bytes :=
  if a + n ≤ f.length then some ((f.drop a).take n) else none

/-- `popcount(v)`: the number of 1 bits (R10). -/
def popcount {n : Nat} (v : BitVec n) : Nat :=
  (List.range n).countP fun i => v.getLsbD i

/-- The width `W` as a number of bytes, 3 or 4 (R112). -/
def Width.bytes (w : Width) : Nat :=
  match w with
  | .three => 3
  | .four => 4

/-- The number 1 to 6 of a channel (R11). -/
def channelNumber (c : Channel) : Nat := c.val + 1

/-- `W_OF_BIT7` applied to a bit (R7). -/
def WidthMap.apply (m : WidthMap) (bit : Bool) : Width :=
  if bit then m.one else m.zero

/-- The rational a `PosRat` stands for. -/
def PosRat.val (q : PosRat) : Rat := ((q.numPred + 1 : Nat) : Rat) / ((q.denPred + 1 : Nat) : Rat)

/-- `INTERVAL_LUT(w, r)` in milliseconds per sample (R130). -/
def IntervalLut.lookup (t : IntervalLut) (w r : Bool) : Rat :=
  match w, r with
  | false, false => t.w0r0.val
  | false, true => t.w0r1.val
  | true, false => t.w1r0.val
  | true, true => t.w1r1.val

/-- The default channel-name table (R230). -/
def defaultChannelNames : List String := ["BHZ", "BHE", "BHS", "BHN", "BHW", "BLZ"]

/-- R278: a channel-name table not containing exactly 6 entries is rejected at the sink's setup. -/
def SinkConfig.tableOk (k : SinkConfig) : Bool :=
  match k.channelNames with
  | none => true
  | some t => t.length == 6

/-- The name under which a sink finds a channel of a record's `lanes` (R230: channel 1 is entry 1, and so on). -/
def SinkConfig.channelName (k : SinkConfig) (c : Channel) : Option String :=
  (k.channelNames.getD defaultChannelNames)[c.val]?

/-- R303: the codes' lengths that the sink's setup asks for, and the table of R278. -/
def SinkConfig.setupOk (k : SinkConfig) : Bool :=
  k.tableOk && k.networkCode.length == 2 && decide (k.stationCode.length ≤ 5) && k.locationCode.length == 2

end Sys2Proof
end

