-- ==== Sys2Proof/Machine/Flags.lean ====
section
/-! DEFINITION. The only flags of the block: the header-derived predicates (spec 10_state R32), recomputed from the header
each time they are read and stored nowhere.  Bit fields: 30_encoding R83 to R86. -/

namespace Sys2Proof

/-- The 12 marker bytes, "SeismicData" and a NUL byte (R7, R83). -/
def marker : Bytes :=
  [0x53#8, 0x65#8, 0x69#8, 0x73#8, 0x6D#8, 0x69#8, 0x63#8, 0x44#8, 0x61#8, 0x74#8, 0x61#8, 0x00#8]

/-- The byte at a constant offset of a header. -/
def Header.byte (h : Header) (i : Nat) (hi : i < 80 := by decide) : Byte :=
  h.raw[i]'(by rw [h.size]; exact hi)

/-- `marker_ok(H)`: all 12 bytes equal, offset by offset (R110). -/
def Header.markerOk (h : Header) : Bool := decide (memRead h.raw 0 12 = some marker)

/-- `hdr_size(H)` (R111). -/
def Header.hdrSize (h : Header) : Nat := u8 (h.byte 12)

/-- `hdr_size_ok(H)`, informational (R111). -/
def Header.hdrSizeOk (h : Header) : Bool := h.hdrSize == 80

/-- `cfg_w(H) = H[13][7]` (R112). -/
def Header.cfgW (h : Header) : Bool := (h.byte 13).getLsbD 7

/-- `cfg_intoff(H) = H[13][6]` (R113). -/
def Header.cfgIntoff (h : Header) : Bool := (h.byte 13).getLsbD 6

/-- `cfg_lowpwr(H) = H[13][5]` (R114). -/
def Header.cfgLowpwr (h : Header) : Bool := (h.byte 13).getLsbD 5

/-- `cfg_lowrate(H) = H[13][4]` (R131). -/
def Header.cfgLowrate (h : Header) : Bool := (h.byte 13).getLsbD 4

/-- `EN(H) = H[14][5:0]`: bits 7 and 6 are masked off (R86, R115). -/
def Header.en (h : Header) : BitVec 6 := (h.byte 14).extractLsb' 0 6

/-- Bit `c - 1` of a channel mask (R115). -/
def chEn (en : BitVec 6) (c : Channel) : Bool := en.getLsbD c.val

/-- `n(H) = popcount(EN(H))`, 0 to 6 (R115). -/
def Header.enabledCount (h : Header) : Nat := popcount h.en

end Sys2Proof
end

