-- ==== Sys2Proof/WellFormed.lean ====
section
/-! DEFINITION. Which terms of `Instr` are operations with legal operands.  Each check is that the bytes an operation reads
are there: without them its rule has nothing to read. -/

namespace Sys2Proof

/-- R134: a byte sequence given to a header accessor has at least 80 bytes. -/
def View.wellFormed (v : View) : Bool :=
  match v with
  | .buf => true
  | .frame => true
  | .bytes h => decide (80 ≤ h.length)

/-- The header view of a raw source is legal. -/
def RawSource.wellFormed (r : RawSource) : Bool :=
  match r with
  | .given _ => true
  | .header v => v.wellFormed

/-- The header view of an age source is legal. -/
def AgeSource.wellFormed (a : AgeSource) : Bool :=
  match a with
  | .given _ => true
  | .header v => v.wellFormed

/-- The operands are those the operation's rule allows: R134 for header views, R198 and R200 with R10 (the bytes
read lie in `F`).  Log entry 23. -/
def Instr.wellFormed (i : Instr) : Bool :=
  match i with
  | .nop | .pushb _ | .pushbL _ | .reset | .rsvd => true
  | .push _ | .fsAppend _ => true
  | .fsWaithdr | .fsSearch | .fsSync0 | .fsDropk | .fsKeeptail | .fsFlush | .fsLen | .fsWaitbody | .fsEmit => true
  | .hpMarker v | .hpHdrsize v | .hpWidth v | .hpIntoff v | .hpLowpwr v | .hpLowrate v | .hpCfg v => v.wellFormed
  | .hpChen v _ => v.wellFormed
  | .hpChmap v | .hpBsamples v | .hpSbytes v | .hpFlen v | .hpStime v | .hpMisc v => v.wellFormed
  | .hpBatt r | .hpTemp r => r.wellFormed
  | .hpRevboard v | .hpGps v | .hpGpsfix v => v.wellFormed
  | .hpGpsage a => a.wellFormed
  | .hpPosdisc v | .hpPosstr v | .hpTail v | .hpInterval v => v.wellFormed
  | .dxTranscode _ | .dxCheck _ => true
  | .dxOffset _ _ _ | .dxAddr _ _ _ => true
  | .dxLoad3 f a => decide (a + 3 ≤ f.length)
  | .dxSext24 _ => true
  | .dxLoad4 f a => decide (a + 4 ≤ f.length)
  | .cpCollect _ _ _ | .cpOut _ | .cpRestart => true

end Sys2Proof
end

