-- ==== Sys2Proof/Decode.lean ====
section
/-! DEFINITION. The decoder of the command word (spec 30_encoding R101), total on all 2048 words; the encoder, written
from the same table, with the expansion of the pseudo-operation PUSH (R102, R106); and the header offsets that select
an accessor (R100).  Micro-operations have no bits (R103): what selects one is a predicate on the state, in
Machine/FrameSync.lean. -/

namespace Sys2Proof

/-- A row of the command-word table: a word `w` belongs to the row when `w &&& mask = pattern` (R101). -/
structure CmdRow where
  mnemonic : String
  pattern  : CmdWord
  mask     : CmdWord
deriving DecidableEq, Repr

/-- The five rows of R101. -/
def cmdTable : List CmdRow :=
  [ ⟨"NOP", 0x000#11, 0x600#11⟩,
    ⟨"PUSHB", 0x200#11, 0x700#11⟩,
    ⟨"PUSHB.L", 0x300#11, 0x700#11⟩,
    ⟨"RESET", 0x400#11, 0x600#11⟩,
    ⟨"RSVD", 0x600#11, 0x600#11⟩ ]

/-- Does a word belong to a row? -/
def CmdRow.accepts (r : CmdRow) (w : CmdWord) : Bool := w &&& r.mask == r.pattern

/-- `op`, bits 10:9 of a command word (R101). -/
def cmdOp (w : CmdWord) : BitVec 2 := w.extractLsb' 9 2

/-- `last`, bit 8 (R101). -/
def cmdLast (w : CmdWord) : Bool := w.getLsbD 8

/-- `data`, bits 7:0, taken as it is (R101). -/
def cmdData (w : CmdWord) : Byte := w.extractLsb' 0 8

/-- The operation a command word selects (R101).  `last` and `data` are ignored for NOP, RESET and RSVD. -/
def decodeCmd (w : CmdWord) : Instr :=
  if cmdOp w = 0#2 then .nop
  else if cmdOp w = 1#2 then (if cmdLast w then .pushbL (cmdData w) else .pushb (cmdData w))
  else if cmdOp w = 2#2 then .reset
  else .rsvd

/-- Why a number is no command word. -/
inductive DecodeError where
  /-- the number has a bit above bit 10, and the port has 11 lines (R101) -/
  | widerThanThePort
deriving DecidableEq, Repr

/-- The decoder on any number: a command word's operation, or a rejection by name. -/
def decode (w : Nat) : Except DecodeError Instr :=
  if w < 2048 then .ok (decodeCmd (BitVec.ofNat 11 w)) else .error .widerThanThePort

/-- The decoder on a sequence of beats (R106). -/
def decodeWords (ws : List CmdWord) : List Instr := ws.map decodeCmd

/-- The beats `PUSHB b0 ; … ; PUSHB.L b(n-1)` of a chunk; none for the empty chunk (R102, R106). -/
def beats (chunk : Bytes) : List Instr :=
  match chunk with
  | [] => []
  | [b] => [.pushbL b]
  | b :: c :: rest => .pushb b :: beats (c :: rest)

/-- The word of a command-port operation; `NOP` and `RESET` have the canonical words 0x000 and 0x400 (R101), and `RSVD`
the example word 0x600 of R244.  Other operations have no word of their own (R100, R103). -/
def encodeWord (i : Instr) : Option CmdWord :=
  match i with
  | .nop => some 0x000#11
  | .pushb d => some (0x200#11 + d.setWidth 11)
  | .pushbL d => some (0x300#11 + d.setWidth 11)
  | .reset => some 0x400#11
  | .rsvd => some 0x600#11
  | .push _ | .fsAppend _ => none
  | .fsWaithdr | .fsSearch | .fsSync0 | .fsDropk | .fsKeeptail | .fsFlush | .fsLen | .fsWaitbody | .fsEmit => none
  | .hpMarker _ | .hpHdrsize _ | .hpWidth _ | .hpIntoff _ | .hpLowpwr _ | .hpLowrate _ | .hpCfg _ => none
  | .hpChen _ _ | .hpChmap _ | .hpBsamples _ | .hpSbytes _ | .hpFlen _ | .hpStime _ | .hpMisc _ => none
  | .hpBatt _ | .hpTemp _ | .hpRevboard _ | .hpGps _ | .hpGpsfix _ | .hpGpsage _ => none
  | .hpPosdisc _ | .hpPosstr _ | .hpTail _ | .hpInterval _ => none
  | .dxTranscode _ | .dxCheck _ | .dxOffset _ _ _ | .dxAddr _ _ _ | .dxLoad3 _ _ | .dxSext24 _ | .dxLoad4 _ _ => none
  | .cpCollect _ _ _ | .cpOut _ | .cpRestart => none

/-- The words of the beats of a chunk, in order (R102, R106). -/
def encodeChunk (chunk : Bytes) : List CmdWord :=
  match chunk with
  | [] => []
  | [b] => [0x300#11 + b.setWidth 11]
  | b :: c :: rest => (0x200#11 + b.setWidth 11) :: encodeChunk (c :: rest)

/-- The command words of an operation that has words: one for a command-port operation, one a beat for `PUSH` (R106);
none for a micro-operation or an accessor (R100, R103). -/
def encode (i : Instr) : Option (List CmdWord) :=
  match i with
  | .push chunk => some (encodeChunk chunk)
  | .nop | .pushb _ | .pushbL _ | .reset | .rsvd => (encodeWord i).map fun w => [w]
  | .fsAppend _ => none
  | .fsWaithdr | .fsSearch | .fsSync0 | .fsDropk | .fsKeeptail | .fsFlush | .fsLen | .fsWaitbody | .fsEmit => none
  | .hpMarker _ | .hpHdrsize _ | .hpWidth _ | .hpIntoff _ | .hpLowpwr _ | .hpLowrate _ | .hpCfg _ => none
  | .hpChen _ _ | .hpChmap _ | .hpBsamples _ | .hpSbytes _ | .hpFlen _ | .hpStime _ | .hpMisc _ => none
  | .hpBatt _ | .hpTemp _ | .hpRevboard _ | .hpGps _ | .hpGpsfix _ | .hpGpsage _ => none
  | .hpPosdisc _ | .hpPosstr _ | .hpTail _ | .hpInterval _ => none
  | .dxTranscode _ | .dxCheck _ | .dxOffset _ _ _ | .dxAddr _ _ _ | .dxLoad3 _ _ | .dxSext24 _ | .dxLoad4 _ _ => none
  | .cpCollect _ _ _ | .cpOut _ | .cpRestart => none

/-- The operations that the words of `encode` are the beats of: a command-port operation itself, the expansion of
`PUSH` (R106). -/
def beatsOf (i : Instr) : List Instr :=
  match i with
  | .push chunk => beats chunk
  | .nop | .pushb _ | .pushbL _ | .reset | .rsvd => [i]
  | .fsAppend _ => []
  | .fsWaithdr | .fsSearch | .fsSync0 | .fsDropk | .fsKeeptail | .fsFlush | .fsLen | .fsWaitbody | .fsEmit => []
  | .hpMarker _ | .hpHdrsize _ | .hpWidth _ | .hpIntoff _ | .hpLowpwr _ | .hpLowrate _ | .hpCfg _ => []
  | .hpChen _ _ | .hpChmap _ | .hpBsamples _ | .hpSbytes _ | .hpFlen _ | .hpStime _ | .hpMisc _ => []
  | .hpBatt _ | .hpTemp _ | .hpRevboard _ | .hpGps _ | .hpGpsfix _ | .hpGpsage _ => []
  | .hpPosdisc _ | .hpPosstr _ | .hpTail _ | .hpInterval _ => []
  | .dxTranscode _ | .dxCheck _ | .dxOffset _ _ _ | .dxAddr _ _ _ | .dxLoad3 _ _ | .dxSext24 _ | .dxLoad4 _ _ => []
  | .cpCollect _ _ _ | .cpOut _ | .cpRestart => []

/-- The header bytes that select an accessor and that it reads, as offset and width (R82, R100, R61). -/
def hdrField (i : Instr) : Option (Nat × Nat) :=
  match i with
  | .hpMarker _ => some (0, 12)
  | .hpHdrsize _ => some (12, 1)
  | .hpWidth _ | .hpIntoff _ | .hpLowpwr _ | .hpLowrate _ | .hpCfg _ | .hpInterval _ => some (13, 1)
  | .hpChen _ _ | .hpChmap _ => some (14, 1)
  | .hpBsamples _ => some (15, 2)
  | .hpSbytes _ => some (17, 1)
  | .hpFlen _ => some (15, 3)
  | .hpStime _ => some (18, 8)
  | .hpMisc _ | .hpBatt _ | .hpTemp _ | .hpRevboard _ => some (26, 7)
  | .hpGps _ | .hpGpsfix _ | .hpGpsage _ => some (33, 20)
  | .hpPosdisc _ => some (53, 1)
  | .hpPosstr _ => some (54, 23)
  | .hpTail _ => some (77, 3)
  | .nop | .pushb _ | .pushbL _ | .reset | .rsvd | .push _ | .fsAppend _ => none
  | .fsWaithdr | .fsSearch | .fsSync0 | .fsDropk | .fsKeeptail | .fsFlush | .fsLen | .fsWaitbody | .fsEmit => none
  | .dxTranscode _ | .dxCheck _ | .dxOffset _ _ _ | .dxAddr _ _ _ | .dxLoad3 _ _ | .dxSext24 _ | .dxLoad4 _ _ => none
  | .cpCollect _ _ _ | .cpOut _ | .cpRestart => none

/-- The marker written as one 96-bit number, byte at offset 0 first: the `match` of the row HP.MARKER (R107). -/
def markerImage : Nat := 0x536569736D69634461746100

/-- The instruction of a table word.  A command word is given in 11 bits, or in the two whole bytes that hold it.  The
row HP.MARKER is the one other row with a pattern, 96 bits of header, and stands for the accessor on the header whose
further bytes are zero.  Log entry 18. -/
def decodeTableWord (nbits w : Nat) : Option Instr :=
  if nbits = 11 ∨ nbits = 16 then (decode w).toOption
  else if nbits = 96 ∧ w = markerImage then some (.hpMarker (.bytes (marker ++ List.replicate 68 0#8)))
  else none

end Sys2Proof
end

