-- ==== Sys2Proof/Machine/State.lean ====
section
/-! DEFINITION. The state of SEDIS-FSD as plain data: the architectural tuple (BUF, LV, L, ST, FSEQ) and CHUNK_OPEN of
spec 10_state R20, the sequencing state of R31, the transient registers of R30, the configuration of R33, and the model's
own fields for input, output and return value (log entry 1).  Also what the block emits (30_encoding R104) and the
reasons a step can stop. -/

namespace Sys2Proof.Machine

open Sys2Proof

/-- The kinds of discard warning (R104, R260). -/
inductive WarnKind where
  | dropToMarker
  | keepTail
  | flushAll
deriving DecidableEq, Repr

/-- The error classes of the source's taxonomy (R105, R260).  `framingAnomaly` is reported as a warning only;
`encoderFailure` and `fileSystemError` are raised outside the block (R268). -/
inductive ErrClass where
  | framingAnomaly
  | invalidHeaderField
  | malformedFrame
  | encoderFailure
  | fileSystemError
deriving DecidableEq, Repr

/-- The causes DX can raise (R260). -/
inductive ErrCause where
  | zeroLength
  | slotOverrun
  | badMarker
  | shortHeader
  | shortBody
deriving DecidableEq, Repr

/-- The record of a transcoded frame (R222).  A lane is present for every enabled channel and for no other (R221). -/
structure SampleRecord where
  fseq       : Nat
  /-- the 80 raw header bytes, unchanged -/
  header     : Bytes
  w          : Width
  en         : BitVec 6
  bs         : Nat
  stimeRaw   : Bytes
  intervalMs : Rat
  /-- the lanes of the enabled channels, channels ascending -/
  lanes      : List (Channel × List Sample)
deriving DecidableEq, Repr

/-- The events of R104. -/
inductive Event where
  | warn (kind : WarnKind) (count : Nat)
  | frame (bytes : Bytes)
  | samples (rec : SampleRecord)
  | err (cls : ErrClass) (cause : ErrCause)
  | seqRestart
deriving DecidableEq, Repr

/-- `ST` (R24). -/
inductive SyncState where
  | accumulatingHeader
  | accumulatingBody
deriving DecidableEq, Repr

/-- The position in the progress loop (R31, R151): no loop in progress, or the loop stands before test (a), after the
search of (b), before step (c), or before test (d) / step (e). -/
inductive LoopPos where
  | idle
  | testA
  | searched
  | stepC
  | stepD
deriving DecidableEq, Repr

/-- The classes of the position discriminator (R127). -/
inductive PosClass where
  | invalid
  | position
  | compass
  | undefined
deriving DecidableEq, Repr

/-- What an operation returns to its caller: the byte count of PUSH (R52, R150), a header field (file 40), or the result
of a micro-operation (R154, R191, R196 to R200). -/
inductive Ret where
  | nothing
  /-- bytes consumed by PUSH -/
  | consumed (n : Nat)
  /-- `k` and `j` of FS.SEARCH; R154 gives `j` a value only when `k` is none, and beside a found `k` there is no `j`
  (DESIGN CHOICE, log entry 27) -/
  | search (k : Option Nat) (j : Option Nat)
  /-- a one-bit field -/
  | flag (b : Bool)
  /-- HP.HDRSIZE: the byte, and its comparison with 80 -/
  | hdrSize (value : Nat) (ok : Bool)
  /-- HP.WIDTH -/
  | width (w : Width)
  /-- HP.CFG: the byte and its reserved bits 3:0 -/
  | cfg (value : Nat) (rsv : BitVec 4)
  /-- HP.CHEN: the channel's bit, the mask EN and the count n -/
  | chEn (enabled : Bool) (en : BitVec 6) (n : Nat)
  /-- a natural: HP.CHMAP, HP.BSAMPLES, HP.SBYTES, HP.FLEN, DX.OFFSET, DX.ADDR -/
  | nat (n : Nat)
  /-- a raw range, offset order -/
  | bytes (b : Bytes)
  /-- an exact rational: volts of HP.BATT, degrees Celsius of HP.TEMP -/
  | rational (q : Rat)
  /-- HP.INTERVAL: milliseconds per sample, and the rate in hertz -/
  | interval (ms : Rat) (hz : Rat)
  | gpsFix (f : GpsFix)
  | gpsAge (a : GpsAge)
  /-- HP.POSDISC: the byte and its class -/
  | posDisc (value : Nat) (cls : PosClass)
  /-- DX.CHECK: the first check that failed, or none -/
  | checked (failed : Option ErrCause)
  /-- DX.LOAD3 -/
  | raw24 (u : BitVec 24)
  /-- DX.SEXT24, DX.LOAD4 -/
  | sample (v : Sample)
deriving DecidableEq, Repr

/-- The registers DX and CP hold during one transcode (R30).  The header `H` is the view `f[0..80)`, `n` is the popcount of
`en`; the loop indices are where the lanes stand: `s` is the length of lane `c`. -/
structure DxRegs where
  /-- `F`, the frame being transcoded -/
  f  : Bytes
  /-- `W` -/
  w  : Width
  /-- `EN` -/
  en : BitVec 6
  /-- `BS` -/
  bs : Nat
  /-- `SB` -/
  sb : Nat
  /-- `CH[1..6]`, the samples collected so far -/
  ch : Vector (List Sample) 6
deriving DecidableEq, Repr

/-- One request of the block's owner: a word on the command port (R101), or an operation given at the transaction level
(R6, R150, R190, R313), which has no word.  Log entry 3. -/
inductive Request where
  | word (w : CmdWord)
  | op (i : Instr)
deriving DecidableEq, Repr

/-- Why a step ends in a fault: an access to an address the spec says does not exist. -/
inductive Fault where
  /-- Raised by a header accessor whose view has fewer than 80 bytes (or whose frame does not exist): R134, "On fewer than 80
  bytes no accessor has a value".  Safe: the model stops, it gives no value. -/
  | headerOutOfBounds
  /-- Raised by DX.LOAD3 and DX.LOAD4 when the bytes asked for do not lie in `F`: R10, MemRead is "defined only when
  a + n is at most the length of F".  Safe: the model stops, it gives no value. -/
  | sampleOutOfBounds
deriving DecidableEq, Repr

/-- Why a step gives no next state. -/
inductive Refusal where
  /-- An instruction without a meaning in the model, by its table name; raised only by an arm of `exec`.  Safe. -/
  | notModelled (mnemonic : String)
  /-- Raised by RSVD: R244, "it gives the block no step for this input".  Safe: the spec itself refuses. -/
  | reservedCommand
  /-- Raised by PUSH, FS.APPEND, PUSHB and PUSHB.L when the bytes do not fit into a finite BUF_CAP: R72, "the model gives the
  operation no step".  Safe: the spec itself refuses. -/
  | bufferFull
  /-- Raised by a micro-operation of the progress loop (log entry 4), CP.COLLECT or CP.OUT (log entry 10) in a state that
  does not select it: R100, R103, "Exactly one micro-operation is selected at every step".  The operations of DX never
  raise it (log entry 26).  Safe: the model stops. -/
  | notSelected
  /-- Raised by `step` for a request that reads bytes its own operand does not hold: an accessor on a given sequence of fewer
  than 80 bytes (R134), a load outside its frame (R10; `Instr.wellFormed`).  Safe: the model stops. -/
  | illFormed
deriving DecidableEq, Repr

/-- The state of the machine. -/
structure State where
  /-- the configuration, which no operation writes (R33, R246) -/
  cfg       : Config
  /-- `BUF`, the reassembly buffer, oldest byte first; `LEN` is its length (R21, R22) -/
  buf       : Bytes
  /-- `(LV, L)`, the cached frame length: `none` is `LV = 0`, and then `L` has no value (R23, U7) -/
  cached    : Option Nat
  /-- `ST` (R24) -/
  st        : SyncState
  /-- `FSEQ`, the frame sequence index (R29) -/
  fseq      : Nat
  /-- `CHUNK_OPEN` (R28) -/
  chunkOpen : Bool
  /-- the position in the progress loop (R31) -/
  pos       : LoopPos
  /-- the transient registers of the transcode in progress (R30); `none`: no transcode is in progress -/
  dx        : Option DxRegs
  /-- the model's own: the requests the owner has yet to give, next first -/
  inp       : List Request
  /-- the model's own: the events emitted so far, oldest first (R66, R104) -/
  out       : List Event
  /-- the model's own: what the last operation that returns a value returned -/
  ret       : Ret
deriving DecidableEq, Repr

/-- Power-on reset (R38, R300): empty buffer, no cached length, AccumulatingHeader, FSEQ = 1, no chunk open, and no event.
No operation is in progress, nothing is requested, nothing was returned (log entry 20). -/
def State.reset : State :=
  { cfg := Config.initial
    buf := []
    cached := none
    st := .accumulatingHeader
    fseq := 1
    chunkOpen := false
    pos := .idle
    dx := none
    inp := []
    out := []
    ret := .nothing }

end Sys2Proof.Machine
end

