-- ==== Sys2Proof/Machine/Operands.lean ====
section
/-! DEFINITION. Operand forms: how a view becomes a header (spec 30_encoding R82, 40_header_parser R134), and the value of
every header field (40_header_parser R110 to R135).  The flags are in Machine/Flags.lean. -/

namespace Sys2Proof

/-- The header view of a byte sequence, its first 80 bytes; none when it has fewer (R134). -/
def headerOf (f : Bytes) : Option Header :=
  if h : 80 ≤ f.length then some { raw := f.take 80, size := by simp [h] } else none

/-- The `n` raw bytes of a header from offset `off`, offset order (R10, R119). -/
def Header.range (h : Header) (off n : Nat) : Bytes := (h.raw.drop off).take n

/-- `W(H) = W_OF_BIT7(cfg_w(H))` (R112). -/
def Header.width (cfg : Config) (h : Header) : Width := cfg.wOfBit7.apply h.cfgW

/-- `cfg(H)` (R132). -/
def Header.cfgByte (h : Header) : Nat := u8 (h.byte 13)

/-- `cfg_rsv(H) = H[13][3:0]` (R132). -/
def Header.cfgRsv (h : Header) : BitVec 4 := (h.byte 13).extractLsb' 0 4

/-- `ch_map(H)` (R135). -/
def Header.chMap (h : Header) : Nat := u8 (h.byte 14)

/-- `BS(H) = u16_native(H[15], H[16])` (R116). -/
def Header.blockSamples (cfg : Config) (h : Header) : Nat := u16Native cfg.nativeOrder (h.byte 15) (h.byte 16)

/-- `SB(H) = u8(H[17])` (R117). -/
def Header.sampleBytes (h : Header) : Nat := u8 (h.byte 17)

/-- `flen(H) = 80 + BS(H) * SB(H)`, with the constant 80 and not the HeaderSize byte (R118). -/
def Header.frameLen (cfg : Config) (h : Header) : Nat := 80 + h.blockSamples cfg * h.sampleBytes

/-- `stime_raw(H)` (R119). -/
def Header.stimeRaw (h : Header) : Bytes := h.range 18 8

/-- `misc_raw(H)` (R120). -/
def Header.miscRaw (h : Header) : Bytes := h.range 26 7

/-- `gps_raw(H)` (R124). -/
def Header.gpsRaw (h : Header) : Bytes := h.range 33 20

/-- `pos_disc(H)` (R127). -/
def Header.posDisc (h : Header) : Nat := u8 (h.byte 53)

/-- `pos_str(H)` (R128). -/
def Header.posStr (h : Header) : Bytes := h.range 54 23

/-- `tail_raw(H)` (R129). -/
def Header.tailRaw (h : Header) : Bytes := h.range 77 3

/-- `interval_ms(H)` (R130). -/
def Header.intervalMs (cfg : Config) (h : Header) : Rat := cfg.intervalLut.lookup h.cfgW h.cfgLowrate

/-- `rate_hz(H) = 1000 / interval_ms(H)` (R130). -/
def Header.rateHz (cfg : Config) (h : Header) : Rat := 1000 / h.intervalMs cfg

/-- `battery_volts(raw) = 50/1024 * raw`, exact (R121). -/
def batteryVolts (raw : Nat) : Rat := 50 / 1024 * (raw : Rat)

/-- `temp_celsius(raw) = (5000/1024 * raw - 600) / 10`, exact (R122). -/
def tempCelsius (raw : Nat) : Rat := (5000 / 1024 * (raw : Rat) - 600) / 10

/-- The class of an age in seconds (R126).  The class of 10 s exactly is the free value of log entry 8; `key` is the byte
range the age came from. -/
def ageClass (key : Bytes) (age : Option Rat) : GpsAge :=
  match age with
  | none => .unavailable
  | some a => if a < 10 then .fresh else if 10 < a then .old else Config.gpsAgeAtTen key

namespace Machine

/-- `pos_class(H)` (R127). -/
def posClass (disc : Nat) : PosClass :=
  if disc = 0xFF then .invalid
  else if disc = 0x00 then .position
  else if disc = 0x01 then .compass
  else .undefined

/-- The byte sequence a view looks at. -/
def viewBytes (v : View) (s : State) : Bytes :=
  match v with
  | .buf => s.buf
  | .frame => (s.dx.map DxRegs.f).getD []
  | .bytes h => h

/-- The header a view shows; none on fewer than 80 bytes (R134). -/
def viewHeader (v : View) (s : State) : Option Header := headerOf (viewBytes v s)

end Machine

end Sys2Proof
end

