-- ==== Sys2Proof/Machine/Ops.lean ====
section
/-! DEFINITION. The shared operations: the reassembly buffer (spec 20_memory R53 to R56, R72), the marker search
(41_frame_sync R154, R157), the event output (30_encoding R104), and raising an error (60_exceptions R266).  There is no
return operation because nothing is entered (R267). -/

namespace Sys2Proof.Machine

open Sys2Proof

/-- `LEN` (R22). -/
def State.len (s : State) : Nat := s.buf.length

/-- `LV` (R23). -/
def State.lv (s : State) : Bool := s.cached.isSome

/-- `emit E`: append an event to the output (R10, R104). -/
def State.emit (e : Event) (s : State) : State := { s with out := s.out ++ [e] }

/-- One byte of the buffer; an offset at or beyond `LEN` has no value (R53). -/
def Memory.read (b : Bytes) (i : Nat) : Option Byte := b[i]?

/-- The buffer append of R54. -/
def Memory.append (b chunk : Bytes) : Bytes := b ++ chunk

/-- The removal of `k` bytes from the front, renumbering the rest (R55). -/
def Memory.dropFront (k : Nat) (b : Bytes) : Bytes := b.drop k

/-- The buffer as address and byte pairs: offsets 0 to `LEN - 1`, each once (R21, R53; log entry 5). -/
def Memory.cells (b : Bytes) : List Host.Cell := b.zipIdx.map fun p => (p.2, p.1)

/-- Does an append of `n` bytes to `len` bytes fit into the capacity?  Always, when the capacity is infinite (R72). -/
def Memory.fits (cap : Option Nat) (len n : Nat) : Bool :=
  match cap with
  | none => true
  | some c => decide (len + n ≤ c)

/-- The canonical form: the addresses of the cells rise strictly, one by one from 0, and `LEN` does not exceed a finite
`BUF_CAP` (R21, R22). -/
def Memory.wf (cap : Option Nat) (b : Bytes) : Bool :=
  decide ((Memory.cells b).map Prod.fst = List.range b.length) && Memory.fits cap b.length 0

/-- The least offset at which all 12 marker bytes match (R154, `k`). -/
def findMarker (b : Bytes) : Option Nat :=
  match b with
  | [] => none
  | x :: rest => if marker.isPrefixOf (x :: rest) then some 0 else (findMarker rest).map (· + 1)

/-- The greatest `j` from `m` down to 1 for which the last `j` bytes are the first `j` marker bytes, or 0. -/
def tailUpTo (m : Nat) (b : Bytes) : Nat :=
  match m with
  | 0 => 0
  | j + 1 =>
    if j + 1 ≤ b.length ∧ b.drop (b.length - (j + 1)) = marker.take (j + 1) then j + 1 else tailUpTo j b

/-- `tail(BUF)`: the length of the trailing marker prefix, at most 11 (R157). -/
def tailLen (b : Bytes) : Nat := tailUpTo 11 b

/-- The class under which a cause is reported (R260). -/
def ErrCause.cls (c : ErrCause) : ErrClass :=
  match c with
  | .zeroLength | .slotOverrun | .badMarker => .invalidHeaderField
  | .shortHeader | .shortBody => .malformedFrame

/-- `raise X(cause)`, the block's exception entry (R10, R266): emit the error and end the transcode, dropping what was
collected.  Nothing is saved and no other element changes. -/
def raise (cause : ErrCause) (s : State) : State :=
  { s.emit (.err cause.cls cause) with dx := none }

/-- A header accessor (R133): look at the view and return the field; no flag and no state element is written. -/
def withHeader (v : View) (s : State) (field : Header → Ret) : Host.Outcome State Fault Refusal :=
  match viewHeader v s with
  | some h => .next { s with ret := field h }
  | none => .fault .headerOutOfBounds

end Sys2Proof.Machine
end

