-- ==== Sys2Proof/Machine/HeaderParser.lean ====
section
/-! DEFINITION. The header parser HP (spec 40_header_parser): every accessor looks at its view and returns the field.  The
fields themselves are in Machine/Operands.lean and Machine/Flags.lean. -/

namespace Sys2Proof.Machine

open Sys2Proof

/-- HP.MARKER (R110): marker validity. -/
def execHpMarker (v : View) (s : State) : Host.Outcome State Fault Refusal :=
  withHeader v s fun h => .flag h.markerOk

/-- HP.HDRSIZE (R111): the header size byte and its comparison with 80. -/
def execHpHdrsize (v : View) (s : State) : Host.Outcome State Fault Refusal :=
  withHeader v s fun h => .hdrSize h.hdrSize h.hdrSizeOk

/-- HP.WIDTH (R112): sample byte width. -/
def execHpWidth (v : View) (s : State) : Host.Outcome State Fault Refusal :=
  withHeader v s fun h => .width (h.width s.cfg)

/-- HP.INTOFF (R113): internal-offset flag. -/
def execHpIntoff (v : View) (s : State) : Host.Outcome State Fault Refusal :=
  withHeader v s fun h => .flag h.cfgIntoff

/-- HP.LOWPWR (R114): low-power flag. -/
def execHpLowpwr (v : View) (s : State) : Host.Outcome State Fault Refusal :=
  withHeader v s fun h => .flag h.cfgLowpwr

/-- HP.LOWRATE (R131): low-sampling-rate flag. -/
def execHpLowrate (v : View) (s : State) : Host.Outcome State Fault Refusal :=
  withHeader v s fun h => .flag h.cfgLowrate

/-- HP.CFG (R132): the whole configuration byte and its reserved bits. -/
def execHpCfg (v : View) (s : State) : Host.Outcome State Fault Refusal :=
  withHeader v s fun h => .cfg h.cfgByte h.cfgRsv

/-- HP.CHMAP (R135): the whole bitmap byte. -/
def execHpChmap (v : View) (s : State) : Host.Outcome State Fault Refusal :=
  withHeader v s fun h => .nat h.chMap

/-- HP.BSAMPLES (R116): samples per channel. -/
def execHpBsamples (v : View) (s : State) : Host.Outcome State Fault Refusal :=
  withHeader v s fun h => .nat (h.blockSamples s.cfg)

/-- HP.SBYTES (R117): bytes per sample slot. -/
def execHpSbytes (v : View) (s : State) : Host.Outcome State Fault Refusal :=
  withHeader v s fun h => .nat h.sampleBytes

/-- HP.FLEN (R118): declared frame length. -/
def execHpFlen (v : View) (s : State) : Host.Outcome State Fault Refusal :=
  withHeader v s fun h => .nat (h.frameLen s.cfg)

/-- HP.STIME (R119): first-sample time, raw. -/
def execHpStime (v : View) (s : State) : Host.Outcome State Fault Refusal :=
  withHeader v s fun h => .bytes h.stimeRaw

/-- HP.MISC (R120): battery, temperature, revision, board, raw. -/
def execHpMisc (v : View) (s : State) : Host.Outcome State Fault Refusal :=
  withHeader v s fun h => .bytes h.miscRaw

/-- HP.REVBOARD (R123): revision and board identifiers, exposed only as part of `misc_raw` (log entry 17). -/
def execHpRevboard (v : View) (s : State) : Host.Outcome State Fault Refusal :=
  withHeader v s fun h => .bytes h.miscRaw

/-- HP.GPS (R124): GPS correction metadata, raw. -/
def execHpGps (v : View) (s : State) : Host.Outcome State Fault Refusal :=
  withHeader v s fun h => .bytes h.gpsRaw

/-- HP.GPSFIX (R125): GPS fix source, by the open parameter `gps_fix`. -/
def execHpGpsfix (v : View) (s : State) : Host.Outcome State Fault Refusal :=
  withHeader v s fun h => .gpsFix (Config.gpsFix h.gpsRaw)

/-- HP.POSDISC (R127): position-area discriminator and its class. -/
def execHpPosdisc (v : View) (s : State) : Host.Outcome State Fault Refusal :=
  withHeader v s fun h => .posDisc h.posDisc (posClass h.posDisc)

/-- HP.POSSTR (R128): position or compass string, raw. -/
def execHpPosstr (v : View) (s : State) : Host.Outcome State Fault Refusal :=
  withHeader v s fun h => .bytes h.posStr

/-- HP.TAIL (R129): the last three header bytes. -/
def execHpTail (v : View) (s : State) : Host.Outcome State Fault Refusal :=
  withHeader v s fun h => .bytes h.tailRaw

/-- HP.INTERVAL (R130): sampling interval and rate. -/
def execHpInterval (v : View) (s : State) : Host.Outcome State Fault Refusal :=
  withHeader v s fun h => .interval (h.intervalMs s.cfg) (h.rateHz s.cfg)

/-- HP.CHEN (R115): the channel's enable bit, with the mask EN and the count n. -/
def execHpChen (v : View) (c : Channel) (s : State) : Host.Outcome State Fault Refusal :=
  withHeader v s fun h => .chEn (chEn h.en c) h.en h.enabledCount

/-- HP.BATT (R121): battery voltage of a raw reading, given or taken from `misc_raw` by the open parameter `batt_raw`. -/
def execHpBatt (r : RawSource) (s : State) : Host.Outcome State Fault Refusal :=
  match r with
  | .given raw => .next { s with ret := .rational (batteryVolts raw) }
  | .header v => withHeader v s fun h => .rational (batteryVolts (Config.battRaw h.miscRaw))

/-- HP.TEMP (R122): temperature of a raw reading, given or taken from `misc_raw` by the open parameter `temp_raw`. -/
def execHpTemp (r : RawSource) (s : State) : Host.Outcome State Fault Refusal :=
  match r with
  | .given raw => .next { s with ret := .rational (tempCelsius raw) }
  | .header v => withHeader v s fun h => .rational (tempCelsius (Config.tempRaw h.miscRaw))

/-- HP.GPSAGE (R126): the class of an age, given or taken from `gps_raw` by the open parameter `gps_age`. -/
def execHpGpsage (a : AgeSource) (s : State) : Host.Outcome State Fault Refusal :=
  match a with
  | .given age => .next { s with ret := .gpsAge (ageClass [] age) }
  | .header v => withHeader v s fun h => .gpsAge (ageClass h.gpsRaw (Config.gpsAgeSeconds h.gpsRaw))

end Sys2Proof.Machine
end

