-- ==== Sys2Proof/Machine/Convert.lean ====
section
/-! DEFINITION. The channel interleave-to-parallel converter CP (spec 43_channel_parallel). -/

namespace Sys2Proof.Machine

open Sys2Proof

/-- `CH[c][s] <- v` for the next sample index of the lane (R220, R195). -/
def collect (c : Channel) (v : Sample) (r : DxRegs) : DxRegs :=
  { r with ch := r.ch.set c.val (r.ch[c.val] ++ [v]) c.isLt }

/-- The lanes handed over: one for every enabled channel, ascending, and none for a disabled channel (R221, R222;
log entry 11). -/
def lanesOf (r : DxRegs) : List (Channel × List Sample) :=
  ((List.finRange 6).filter fun c => chEn r.en c).map fun c => (c, r.ch[c.val])

/-- Every enabled channel's lane holds `BS` samples (R221). -/
def lanesComplete (r : DxRegs) : Bool :=
  (List.finRange 6).all fun c => !chEn r.en c || r.ch[c.val].length == r.bs

/-- The record of R222 for a frame with header `h`, sequence index `fseq` and the given lanes. -/
def sampleRecord (cfg : Config) (h : Header) (fseq : Nat) (lanes : List (Channel × List Sample)) : SampleRecord :=
  { fseq := fseq
    header := h.raw
    w := h.width cfg
    en := h.en
    bs := h.blockSamples cfg
    stimeRaw := h.stimeRaw
    intervalMs := h.intervalMs cfg
    lanes := lanes }

/-- Emit the record, then advance FSEQ (R222, R225); the transcode is over (R30, R312). -/
def handOver (h : Header) (r : DxRegs) (s : State) : State :=
  { s.emit (.samples (sampleRecord s.cfg h s.fseq (lanesOf r))) with fseq := s.fseq + 1, dx := none }

/-- `FSEQ <- 1 ; emit SEQ_RESTART` (R226). -/
def restartSequence (s : State) : State :=
  { s.emit .seqRestart with fseq := 1 }

/-- The validity checks in their order (R191); the header when all pass. -/
def checkFrame (cfg : Config) (f : Bytes) : Except ErrCause Header :=
  match headerOf f with
  | none => .error .shortHeader
  | some h =>
    if h.markerOk = false then .error .badMarker
    else if h.blockSamples cfg * h.sampleBytes = 0 then .error .zeroLength
    else if h.sampleBytes < h.enabledCount * (h.width cfg).bytes then .error .slotOverrun
    else if f.length < 80 + h.blockSamples cfg * h.sampleBytes then .error .shortBody
    else .ok h

/-- CP.COLLECT (R220).  Selected for an enabled channel and a sample index below BS, each lane in ascending order of the
index (R195) and each element once; log entry 10. -/
def execCpCollect (c : Channel) (slot : Nat) (v : Sample) (s : State) : Host.Outcome State Fault Refusal :=
  match s.dx with
  | none => .refused .notSelected
  | some r =>
    if chEn r.en c = true ∧ slot < r.bs ∧ slot = r.ch[c.val].length then
      .next { s with dx := some (collect c v r) }
    else .refused .notSelected

/-- CP.OUT (R222), selected after the checks passed and when all lanes of the frame are complete. -/
def execCpOut (f : Bytes) (s : State) : Host.Outcome State Fault Refusal :=
  match s.dx, checkFrame s.cfg f with
  | some r, .ok h =>
    if r.f = f ∧ lanesComplete r = true then .next (handOver h r s) else .refused .notSelected
  | some _, .error _ => .refused .notSelected
  | none, _ => .refused .notSelected

/-- CP.RESTART (R226).  R100 selects it by RESET; asked for alone it runs in any state (DESIGN CHOICE, log entry 26). -/
def execCpRestart (s : State) : Host.Outcome State Fault Refusal :=
  .next (restartSequence s)

end Sys2Proof.Machine
end

