-- ==== Sys2Proof/Machine/Demux.lean ====
section
/-! DEFINITION. The sample demultiplexer and sign-extension engine DX (spec 42_sample_demux). -/

namespace Sys2Proof.Machine

open Sys2Proof

/-- `off(c) = W * popcount(EN & ((1 << (c-1)) - 1))` (R196). -/
def channelOffset (en : BitVec 6) (w : Width) (c : Channel) : Nat :=
  w.bytes * popcount (en &&& ((1#6 <<< c.val) - 1#6))

/-- `a(c, s) = 80 + s * SB + off(c)` (R197). -/
def sampleAddr (slot sb off : Nat) : Nat := 80 + slot * sb + off

/-- What DX.OFFSET answers: the offset of R196 for an enabled channel; for another the rule states none, and the answer is a
free value (DESIGN CHOICE, log entry 28). -/
def offsetAnswer (en : BitVec 6) (w : Width) (c : Channel) : Nat :=
  if chEn en c then channelOffset en w c else Config.offsetOfDisabled en w c

/-- What DX.ADDR answers: the address of R197 for operands in the ranges the rule computes its bound from; for others a free
value (DESIGN CHOICE, log entry 28). -/
def addrAnswer (slot sb off : Nat) : Nat :=
  if slot < 65535 ∧ sb < 256 ∧ off ≤ 20 then sampleAddr slot sb off else Config.addrBeyondRange slot sb off

/-- The 3-byte load, most significant byte at the lowest offset (R198). -/
def load3 (f : Bytes) (a : Nat) : Option (BitVec 24) :=
  match memRead f a 3 with
  | some [b0, b1, b2] => some (u24Msb b0 b1 b2)
  | _ => none

/-- The native 4-byte load (R200). -/
def load4 (o : ByteOrder) (f : Bytes) (a : Nat) : Option Sample :=
  match memRead f a 4 with
  | some [b0, b1, b2, b3] => some (s32Native o b0 b1 b2 b3)
  | _ => none

/-- One sample by its width: load 3 bytes and sign-extend, or load 4 (R190). -/
def loadSample (cfg : Config) (w : Width) (f : Bytes) (a : Nat) : Option Sample :=
  match w with
  | .three => (load3 f a).map sext24
  | .four => load4 cfg.nativeOrder f a

/-- The registers a transcode starts with: `H := F[0..80)`, then W, EN, BS and SB from it, and six empty lanes (R190). -/
def startRegs (cfg : Config) (f : Bytes) (h : Header) : DxRegs :=
  { f := f
    w := h.width cfg
    en := h.en
    bs := h.blockSamples cfg
    sb := h.sampleBytes
    ch := Vector.replicate 6 [] }

/-- Decode sample `slot` of channel `c` and collect it (R190).  Bytes outside the frame are never read (R64); were they, no
value would be collected. -/
def demuxSample (cfg : Config) (c : Channel) (r : DxRegs) (slot : Nat) : DxRegs :=
  match loadSample cfg r.w r.f (sampleAddr slot r.sb (channelOffset r.en r.w c)) with
  | some v => collect c v r
  | none => r

/-- The inner loop of R190: all sample indices of channel `c`, ascending, when `c` is enabled. -/
def demuxChannel (cfg : Config) (r : DxRegs) (c : Channel) : DxRegs :=
  if chEn r.en c then (List.range r.bs).foldl (demuxSample cfg c) r else r

/-- The outer loop of R190: channels 1 to 6, ascending (R195). -/
def demuxFrame (cfg : Config) (r : DxRegs) : DxRegs :=
  (List.finRange 6).foldl (demuxChannel cfg) r

/-- The whole transcode of one frame (R190): the checks, then either one error (R266) or the complete record (R222). -/
def transcode (f : Bytes) (s : State) : State :=
  match checkFrame s.cfg f with
  | .error cause => raise cause s
  | .ok h => handOver h (demuxFrame s.cfg (startRegs s.cfg f h)) s

/-- DX.TRANSCODE (R190), defined for any byte sequence. -/
def execDxTranscode (f : Bytes) (s : State) : Host.Outcome State Fault Refusal :=
  .next (transcode f s)

/-- DX.CHECK (R191).  A frame that fails raises its error; one that passes opens the transcode's registers, so that the
micro-operations after it can be given one by one (log entry 10).  R191 gives it no returned value; asked for alone it
returns the first check that failed, or none (DESIGN CHOICE, log entry 29). -/
def execDxCheck (f : Bytes) (s : State) : Host.Outcome State Fault Refusal :=
  match checkFrame s.cfg f with
  | .error cause => .next { raise cause s with ret := .checked (some cause) }
  | .ok h => .next { s with dx := some (startRegs s.cfg f h), ret := .checked none }

/-- DX.OFFSET (R196).  Asked for alone it runs on its operands in any state (DESIGN CHOICE, log entry 26). -/
def execDxOffset (en : BitVec 6) (w : Width) (c : Channel) (s : State) : Host.Outcome State Fault Refusal :=
  .next { s with ret := .nat (offsetAnswer en w c) }

/-- DX.ADDR (R197).  Asked for alone it runs on its operands in any state (DESIGN CHOICE, log entry 26). -/
def execDxAddr (slot sb off : Nat) (s : State) : Host.Outcome State Fault Refusal :=
  .next { s with ret := .nat (addrAnswer slot sb off) }

/-- DX.LOAD3 (R198).  R198 and R103 select it inside a transcode by `W = 3`; asked for alone it has its operands only, and
runs whatever `W` is (DESIGN CHOICE, log entry 26). -/
def execDxLoad3 (f : Bytes) (a : Nat) (s : State) : Host.Outcome State Fault Refusal :=
  match load3 f a with
  | some u => .next { s with ret := .raw24 u }
  | none => .fault .sampleOutOfBounds

/-- DX.SEXT24 (R199).  R100 places it after DX.LOAD3; asked for alone it runs on its operand in any state (DESIGN CHOICE,
log entry 26). -/
def execDxSext24 (u : BitVec 24) (s : State) : Host.Outcome State Fault Refusal :=
  .next { s with ret := .sample (sext24 u) }

/-- DX.LOAD4 (R200).  R200 and R103 select it inside a transcode by `W = 4`; asked for alone it has its operands only, and
runs whatever `W` is (DESIGN CHOICE, log entry 26). -/
def execDxLoad4 (f : Bytes) (a : Nat) (s : State) : Host.Outcome State Fault Refusal :=
  match load4 s.cfg.nativeOrder f a with
  | some v => .next { s with ret := .sample v }
  | none => .fault .sampleOutOfBounds

end Sys2Proof.Machine
end

