-- ==== Sys2Proof/Machine/FrameSync.lean ====
section
/-! DEFINITION. The frame synchronizer FS (spec 41_frame_sync): the selection of a micro-operation (30_encoding R100, R103),
the micro-operations, the progress loop (R151) and PUSH (R150). -/

namespace Sys2Proof.Machine

open Sys2Proof

/-- A micro-operation of the progress loop as the tests select it, with the operand the test computed. -/
inductive FsOp where
  | waitHdr
  | search
  | sync0
  | dropK (k : Nat)
  | keepTail (j : Nat)
  | flush
  | len (flen : Nat)
  | waitBody
  | emit (l : Nat)
deriving DecidableEq, Repr

/-- The row of the operation table that a selected micro-operation is. -/
def FsOp.instr (m : FsOp) : Instr :=
  match m with
  | .waitHdr => .fsWaithdr
  | .search => .fsSearch
  | .sync0 => .fsSync0
  | .dropK _ => .fsDropk
  | .keepTail _ => .fsKeeptail
  | .flush => .fsFlush
  | .len _ => .fsLen
  | .waitBody => .fsWaitbody
  | .emit _ => .fsEmit

/-- The micro-operation that the tests of R151 select at a position of the loop (R100, R103).  None outside the loop, and
none where the data contradict the position, which no run reaches. -/
def selectAt (p : LoopPos) (s : State) : Option FsOp :=
  match p with
  | .idle => none
  | .testA => if s.buf.length < 80 then some .waitHdr else some .search
  | .searched =>
    if s.buf.length < 80 then none
    else
      match findMarker s.buf with
      | some 0 => some .sync0
      | some (k + 1) => some (.dropK (k + 1))
      | none =>
        match tailLen s.buf with
        | 0 => some .flush
        | j + 1 => some (.keepTail (j + 1))
  | .stepC =>
    match headerOf s.buf, findMarker s.buf with
    | some h, some 0 => some (.len (h.frameLen s.cfg))
    | some _, some (_ + 1) => none
    | some _, none => none
    | none, _ => none
  | .stepD =>
    match s.cached with
    | none => none
    | some l => if s.buf.length < l then some .waitBody else some (.emit l)

/-- The micro-operation selected now (R31, R103). -/
def select (s : State) : Option FsOp := selectAt s.pos s

/-- FS.APPEND's effect: append the chunk; the progress loop comes next (R150, R152). -/
def appendChunk (chunk : Bytes) (s : State) : State :=
  { s with buf := Memory.append s.buf chunk, pos := .testA }

/-- R153, R162: stop, with nothing else changed. -/
def stopLoop (s : State) : State := { s with pos := .idle }

/-- R154: search the buffer; the result decides the dispatch of (b).  R154 defines `j` only when no marker is found; beside a
found one no `j` is returned (DESIGN CHOICE, log entry 27). -/
def searchMarker (s : State) : State :=
  { s with
    pos := .searched
    ret := .search (findMarker s.buf) (if findMarker s.buf = none then some (tailLen s.buf) else none) }

/-- R155: go to (c). -/
def syncAtZero (s : State) : State := { s with pos := .stepC }

/-- R156: warn, drop the first `k` bytes, again. -/
def dropToMarker (k : Nat) (s : State) : State :=
  { s.emit (.warn .dropToMarker k) with buf := Memory.dropFront k s.buf, pos := .testA }

/-- R158: warn, keep the last `j` bytes, stop. -/
def keepMarkerTail (j : Nat) (s : State) : State :=
  { s.emit (.warn .keepTail (s.buf.length - j)) with buf := Memory.dropFront (s.buf.length - j) s.buf, pos := .idle }

/-- R159: warn, discard everything, again. -/
def flushAll (s : State) : State :=
  { s.emit (.warn .flushAll s.buf.length) with buf := Memory.dropFront s.buf.length s.buf, pos := .testA }

/-- R161: cache the length when none is cached, and go to (d). -/
def cacheLen (flen : Nat) (s : State) : State :=
  match s.cached with
  | none => { s with cached := some flen, st := .accumulatingBody, pos := .stepD }
  | some _ => { s with pos := .stepD }

/-- R163: cut the frame, clear the cached length, emit the frame, transcode it, again. -/
def emitFrame (l : Nat) (s : State) : State :=
  { transcode (s.buf.take l)
      ({ s with buf := Memory.dropFront l s.buf, cached := none, st := .accumulatingHeader }.emit
        (.frame (s.buf.take l)))
    with pos := .testA }

/-- The effect of a selected micro-operation. -/
def FsOp.apply (m : FsOp) (s : State) : State :=
  match m with
  | .waitHdr => stopLoop s
  | .search => searchMarker s
  | .sync0 => syncAtZero s
  | .dropK k => dropToMarker k s
  | .keepTail j => keepMarkerTail j s
  | .flush => flushAll s
  | .len flen => cacheLen flen s
  | .waitBody => stopLoop s
  | .emit l => emitFrame l s

/-- The progress loop of R151, one selected micro-operation at a time, for at most `fuel` of them. -/
def progress (fuel : Nat) (s : State) : State :=
  match fuel with
  | 0 => s
  | n + 1 =>
    match select s with
    | none => s
    | some m => progress n (m.apply s)

/-- Enough micro-operations for the loop to stop on a buffer of `len` bytes: every `again` shortens the buffer (R151). -/
def loopFuel (len : Nat) : Nat := 4 * len + 8

/-- Run the progress loop from test (a) until it stops (R151).  What the searches inside returned is not returned. -/
def runLoop (s : State) : State :=
  { progress (loopFuel s.buf.length) { s with pos := .testA } with ret := s.ret }

/-- Run a micro-operation where the table's "select" predicate, seen at position `p`, selects it (R100); refuse otherwise.
`wanted` says which selected operation it is.  Log entry 4. -/
def runSelected (p : LoopPos) (wanted : Instr) (s : State) : Host.Outcome State Fault Refusal :=
  match selectAt p s with
  | none => .refused .notSelected
  | some m => if m.instr = wanted then .next (m.apply s) else .refused .notSelected

/-- PUSH (R150).  The empty chunk is no beat and does nothing (R102, R106; log entry 12); a chunk that does not fit is refused
whole (R72); otherwise append, run the loop, return the byte count (R52).  It ends with its last beat, so no chunk is left
open (R106, R242). -/
def execPush (chunk : Bytes) (s : State) : Host.Outcome State Fault Refusal :=
  match chunk with
  | [] => .next { s with ret := .consumed 0 }
  | b :: rest =>
    if Memory.fits s.cfg.bufCap s.buf.length (b :: rest).length then
      .next { runLoop { appendChunk (b :: rest) s with chunkOpen := false } with ret := .consumed (b :: rest).length }
    else .refused .bufferFull

/-- FS.APPEND (R152), refused when the chunk does not fit (R72; log entry 16). -/
def execFsAppend (chunk : Bytes) (s : State) : Host.Outcome State Fault Refusal :=
  if Memory.fits s.cfg.bufCap s.buf.length chunk.length then .next (appendChunk chunk s) else .refused .bufferFull

/-- FS.WAITHDR (R153), selected by `LEN < 80`. -/
def execFsWaithdr (s : State) : Host.Outcome State Fault Refusal := runSelected .testA .fsWaithdr s

/-- FS.SEARCH (R154), selected by `LEN ≥ 80`. -/
def execFsSearch (s : State) : Host.Outcome State Fault Refusal := runSelected .testA .fsSearch s

/-- FS.SYNC0 (R155), selected by the search result `k = 0`. -/
def execFsSync0 (s : State) : Host.Outcome State Fault Refusal := runSelected .searched .fsSync0 s

/-- FS.DROPK (R156), selected by the search result `k > 0`. -/
def execFsDropk (s : State) : Host.Outcome State Fault Refusal := runSelected .searched .fsDropk s

/-- FS.KEEPTAIL (R158), selected by no match and a tail of length `j > 0`. -/
def execFsKeeptail (s : State) : Host.Outcome State Fault Refusal := runSelected .searched .fsKeeptail s

/-- FS.FLUSH (R159), selected by no match and `j = 0`. -/
def execFsFlush (s : State) : Host.Outcome State Fault Refusal := runSelected .searched .fsFlush s

/-- FS.LEN (R161), selected with a validated header at offset 0. -/
def execFsLen (s : State) : Host.Outcome State Fault Refusal := runSelected .stepC .fsLen s

/-- FS.WAITBODY (R162), selected by `LV = 1` and `LEN < L`. -/
def execFsWaitbody (s : State) : Host.Outcome State Fault Refusal := runSelected .stepD .fsWaitbody s

/-- FS.EMIT (R163), selected by `LV = 1` and `LEN ≥ L`. -/
def execFsEmit (s : State) : Host.Outcome State Fault Refusal := runSelected .stepD .fsEmit s

end Sys2Proof.Machine
end

