-- ==== Sys2Proof/Machine/Port.lean ====
section
/-! DEFINITION. The command-port operations (spec 44_control_ops). -/

namespace Sys2Proof.Machine

open Sys2Proof

/-- Every element at its reset value, configuration kept (R38, R243, R301); the operation in progress, if any, is gone (log
entry 13). -/
def clearBlock (s : State) : State :=
  { s with
    buf := []
    cached := none
    st := .accumulatingHeader
    chunkOpen := false
    pos := .idle
    dx := none }

/-- NOP (R240): nothing. -/
def execNop (s : State) : Host.Outcome State Fault Refusal := .next s

/-- PUSHB (R241): append one byte and leave the chunk open; no loop runs. -/
def execPushb (d : Byte) (s : State) : Host.Outcome State Fault Refusal :=
  if Memory.fits s.cfg.bufCap s.buf.length 1 then
    .next { s with buf := Memory.append s.buf [d], chunkOpen := true }
  else .refused .bufferFull

/-- PUSHB.L (R242): append the last byte, close the chunk, run the progress loop. -/
def execPushbL (d : Byte) (s : State) : Host.Outcome State Fault Refusal :=
  if Memory.fits s.cfg.bufCap s.buf.length 1 then
    .next (runLoop { s with buf := Memory.append s.buf [d], chunkOpen := false })
  else .refused .bufferFull

/-- RESET (R243): clear, then CP.RESTART. -/
def execReset (s : State) : Host.Outcome State Fault Refusal :=
  .next (restartSequence (clearBlock s))

/-- RSVD (R244): refused; it is never a NOP. -/
def execRsvd (_s : State) : Host.Outcome State Fault Refusal := .refused .reservedCommand

end Sys2Proof.Machine
end

