-- ==== Sys2Proof/Machine/Dispatch.lean ====
section
/-! DEFINITION. The dispatch: one arm per operation of the table (spec 30_encoding R100), each one call of its meaning. -/

namespace Sys2Proof.Machine

def exec (i : Instr) (s : State) : Host.Outcome State Fault Refusal :=
  match i with
  | .nop => Sys2Proof.Machine.execNop s
  | .pushb a => Sys2Proof.Machine.execPushb a s
  | .pushbL a => Sys2Proof.Machine.execPushbL a s
  | .reset => Sys2Proof.Machine.execReset s
  | .rsvd => Sys2Proof.Machine.execRsvd s
  | .push a => Sys2Proof.Machine.execPush a s
  | .fsAppend a => Sys2Proof.Machine.execFsAppend a s
  | .fsWaithdr => Sys2Proof.Machine.execFsWaithdr s
  | .fsSearch => Sys2Proof.Machine.execFsSearch s
  | .fsSync0 => Sys2Proof.Machine.execFsSync0 s
  | .fsDropk => Sys2Proof.Machine.execFsDropk s
  | .fsKeeptail => Sys2Proof.Machine.execFsKeeptail s
  | .fsFlush => Sys2Proof.Machine.execFsFlush s
  | .fsLen => Sys2Proof.Machine.execFsLen s
  | .fsWaitbody => Sys2Proof.Machine.execFsWaitbody s
  | .fsEmit => Sys2Proof.Machine.execFsEmit s
  | .hpMarker a => Sys2Proof.Machine.execHpMarker a s
  | .hpHdrsize a => Sys2Proof.Machine.execHpHdrsize a s
  | .hpWidth a => Sys2Proof.Machine.execHpWidth a s
  | .hpIntoff a => Sys2Proof.Machine.execHpIntoff a s
  | .hpLowpwr a => Sys2Proof.Machine.execHpLowpwr a s
  | .hpLowrate a => Sys2Proof.Machine.execHpLowrate a s
  | .hpCfg a => Sys2Proof.Machine.execHpCfg a s
  | .hpChen a b => Sys2Proof.Machine.execHpChen a b s
  | .hpChmap a => Sys2Proof.Machine.execHpChmap a s
  | .hpBsamples a => Sys2Proof.Machine.execHpBsamples a s
  | .hpSbytes a => Sys2Proof.Machine.execHpSbytes a s
  | .hpFlen a => Sys2Proof.Machine.execHpFlen a s
  | .hpStime a => Sys2Proof.Machine.execHpStime a s
  | .hpMisc a => Sys2Proof.Machine.execHpMisc a s
  | .hpBatt a => Sys2Proof.Machine.execHpBatt a s
  | .hpTemp a => Sys2Proof.Machine.execHpTemp a s
  | .hpRevboard a => Sys2Proof.Machine.execHpRevboard a s
  | .hpGps a => Sys2Proof.Machine.execHpGps a s
  | .hpGpsfix a => Sys2Proof.Machine.execHpGpsfix a s
  | .hpGpsage a => Sys2Proof.Machine.execHpGpsage a s
  | .hpPosdisc a => Sys2Proof.Machine.execHpPosdisc a s
  | .hpPosstr a => Sys2Proof.Machine.execHpPosstr a s
  | .hpTail a => Sys2Proof.Machine.execHpTail a s
  | .hpInterval a => Sys2Proof.Machine.execHpInterval a s
  | .dxTranscode a => Sys2Proof.Machine.execDxTranscode a s
  | .dxCheck a => Sys2Proof.Machine.execDxCheck a s
  | .dxOffset a b c => Sys2Proof.Machine.execDxOffset a b c s
  | .dxAddr a b c => Sys2Proof.Machine.execDxAddr a b c s
  | .dxLoad3 a b => Sys2Proof.Machine.execDxLoad3 a b s
  | .dxSext24 a => Sys2Proof.Machine.execDxSext24 a s
  | .dxLoad4 a b => Sys2Proof.Machine.execDxLoad4 a b s
  | .cpCollect a b c => Sys2Proof.Machine.execCpCollect a b c s
  | .cpOut a => Sys2Proof.Machine.execCpOut a s
  | .cpRestart => Sys2Proof.Machine.execCpRestart s

end Sys2Proof.Machine
end

