-- ==== Sys2Proof/Machine/Fetch.lean ====
section
/-! DEFINITION. What runs next: the micro-operation that the progress loop selects while it is in progress (spec 10_state
R31, 30_encoding R103), else the owner's next request (44_control_ops R247: one command at a time, each complete before the
next begins). -/

namespace Sys2Proof.Machine

open Sys2Proof

/-- The operation a request asks for (R101). -/
def Request.instr (r : Request) : Instr :=
  match r with
  | .word w => decodeCmd w
  | .op i => i

/-- The operation that runs next and the state it runs at; none when the loop is at rest and nothing is requested. -/
def fetch (s : State) : Option (Instr × State) :=
  match select s with
  | some m => some (m.instr, s)
  | none =>
    match s.inp with
    | [] => none
    | r :: rest => some (r.instr, { s with inp := rest })

/-- Run an instruction with legal operands; refuse one that reads bytes its operand does not hold (R134, R10; log entry
23). -/
def runChecked (i : Instr) (s : State) : Host.Outcome State Fault Refusal :=
  if i.wellFormed then exec i s else .refused .illFormed

/-- The request that carries a table word: a command word on the port, or the accessor of the row HP.MARKER. -/
def requestOfTableWord (nbits w : Nat) : Option Request :=
  if nbits = 96 then (decodeTableWord nbits w).map Request.op
  else (decodeTableWord nbits w).map fun _ => Request.word (BitVec.ofNat 11 w)

end Sys2Proof.Machine
end

