-- ==== Sys2Proof/Machine/Step.lean ====
section
/-! DEFINITION. One step of the machine. -/

namespace Sys2Proof.Machine

open Sys2Proof

/-- One atomic operation (R6, R62): what `fetch` gives runs; with nothing to run the block idles (R302; log entry 21). -/
def step (s : State) : Host.Outcome State Fault Refusal :=
  match fetch s with
  | none => .next s
  | some (i, t) => runChecked i t

/-- The state in which the owner's next request carries a table word: no loop is in progress, and the word stands first.  A
number that is no table word leaves the state as it is.  Log entries 2 and 18. -/
def State.withFetchWord (s : State) (nbits w : Nat) : State :=
  match requestOfTableWord nbits w with
  | none => s
  | some r => { s with pos := .idle, inp := r :: s.inp }

end Sys2Proof.Machine
end

