-- ==== Sys2Proof/Machine/Codes.lean ====
section
/-! DEFINITION. The numeric codes of events, warnings, errors and causes (spec 30_encoding R105, 60_exceptions R260), and the
serial order of a record (43_channel_parallel R223, R228), for an implementation that puts them on wires.  No operation of
the block reads one. -/

namespace Sys2Proof.Machine

open Sys2Proof

/-- Event codes (R105). -/
def Event.code (e : Event) : Nat :=
  match e with
  | .warn _ _ => 1
  | .frame _ => 2
  | .samples _ => 3
  | .err _ _ => 4
  | .seqRestart => 5

/-- Warning kind codes (R105). -/
def WarnKind.code (k : WarnKind) : Nat :=
  match k with
  | .dropToMarker => 1
  | .keepTail => 2
  | .flushAll => 3

/-- Error class codes (R105). -/
def ErrClass.code (c : ErrClass) : Nat :=
  match c with
  | .framingAnomaly => 1
  | .invalidHeaderField => 2
  | .malformedFrame => 3
  | .encoderFailure => 4
  | .fileSystemError => 5

/-- Cause codes, numbered inside their class (R105). -/
def ErrCause.code (c : ErrCause) : Nat :=
  match c with
  | .zeroLength => 1
  | .slotOverrun => 2
  | .badMarker => 3
  | .shortHeader => 1
  | .shortBody => 2

/-- The samples of a record in serial order: lanes ascending, each lane complete before the next (R223). -/
def SampleRecord.serial (r : SampleRecord) : List Sample := r.lanes.flatMap Prod.snd

/-- The number of samples a record carries (R228). -/
def SampleRecord.sampleCount (r : SampleRecord) : Nat := r.serial.length

end Sys2Proof.Machine
end

