-- ==== Sys2Proof/Safety.lean ====
section
/-! DEFINITION. What counts as a good state and what a run did, in the terms the claims use: the invariants of spec
10_state R25 and R26, the accounting of 41_frame_sync R166, runs of operations (44_control_ops R245), valid frames (R164), and
the spec's own formulas for a decoded sample (43_channel_parallel R221). -/

namespace Sys2Proof.Machine

open Sys2Proof

/-- R26: outside an operation and with no chunk open, either no length is cached and fewer than 80 bytes are buffered, or a
length is cached and the buffer holds a header and not yet the frame. -/
def Quiescent (s : State) : Prop :=
  (s.cached = none ∧ s.buf.length < 80) ∨ ∃ l, s.cached = some l ∧ 80 ≤ s.buf.length ∧ s.buf.length < l

/-- The invariant of the machine. -/
structure Inv (s : State) : Prop where
  /-- R25: a cached length is the one the validated header at offset 0 gives -/
  cachedOk : ∀ l, s.cached = some l →
    ∃ h, headerOf s.buf = some h ∧ s.buf.take 12 = marker ∧ l = h.frameLen s.cfg
  /-- R24, R25: `ST = AccumulatingBody` exactly when `LV = 1` -/
  stOk : s.st = .accumulatingBody ↔ s.lv = true
  /-- R31: the dispatch on a search result comes after a search, and a search needs 80 bytes -/
  searchedOk : s.pos = .searched → 80 ≤ s.buf.length
  /-- R31, R161: step (c) has a validated header at offset 0 -/
  stepCOk : s.pos = .stepC → 80 ≤ s.buf.length ∧ s.buf.take 12 = marker
  /-- R31: steps (d) and (e) come after step (c) -/
  stepDOk : s.pos = .stepD → s.lv = true
  /-- R26 -/
  quiet : s.pos = .idle → s.chunkOpen = false → Quiescent s
  /-- R29: FSEQ is at least 1 -/
  fseqOk : 1 ≤ s.fseq
  /-- R22 and the canonical form of the buffer -/
  memOk : Memory.wf s.cfg.bufCap s.buf = true

/-- Run operations one after another, stopping at the first that gives no next state. -/
def runInstrs (is : List Instr) (s : State) : Host.Outcome State Fault Refusal :=
  match is with
  | [] => .next s
  | i :: rest =>
    match exec i s with
    | .next t => runInstrs rest t
    | .fault f => .fault f
    | .refused r => .refused r

/-- The bytes an operation puts into the buffer, in order (R54). -/
def bytesPushed (i : Instr) : Bytes :=
  match i with
  | .pushb d | .pushbL d => [d]
  | .push chunk | .fsAppend chunk => chunk
  | .nop | .reset | .rsvd => []
  | .fsWaithdr | .fsSearch | .fsSync0 | .fsDropk | .fsKeeptail | .fsFlush | .fsLen | .fsWaitbody | .fsEmit => []
  | .hpMarker _ | .hpHdrsize _ | .hpWidth _ | .hpIntoff _ | .hpLowpwr _ | .hpLowrate _ | .hpCfg _ => []
  | .hpChen _ _ | .hpChmap _ | .hpBsamples _ | .hpSbytes _ | .hpFlen _ | .hpStime _ | .hpMisc _ => []
  | .hpBatt _ | .hpTemp _ | .hpRevboard _ | .hpGps _ | .hpGpsfix _ | .hpGpsage _ => []
  | .hpPosdisc _ | .hpPosstr _ | .hpTail _ | .hpInterval _ => []
  | .dxTranscode _ | .dxCheck _ | .dxOffset _ _ _ | .dxAddr _ _ _ | .dxLoad3 _ _ | .dxSext24 _ | .dxLoad4 _ _ => []
  | .cpCollect _ _ _ | .cpOut _ | .cpRestart => []

/-- The bytes an event accounts for: a warning's count, a frame's length (R166). -/
def Event.bytesOut (e : Event) : Nat :=
  match e with
  | .warn _ count => count
  | .frame f => f.length
  | .samples _ | .err _ _ | .seqRestart => 0

/-- The bytes a list of events accounts for (R166). -/
def bytesOut (es : List Event) : Nat := (es.map Event.bytesOut).sum

/-- The frame of a FRAME event. -/
def Event.frame? (e : Event) : Option Bytes :=
  match e with
  | .frame f => some f
  | .warn _ _ | .samples _ | .err _ _ | .seqRestart => none

/-- The sequence index of a SAMPLES event. -/
def Event.fseq? (e : Event) : Option Nat :=
  match e with
  | .samples r => some r.fseq
  | .warn _ _ | .frame _ | .err _ _ | .seqRestart => none

/-- Is the event a warning? -/
def Event.isWarn (e : Event) : Bool :=
  match e with
  | .warn _ _ => true
  | .frame _ | .samples _ | .err _ _ | .seqRestart => false

/-- R164: a byte sequence that begins with the marker and has the length its own header declares. -/
def ValidFrame (cfg : Config) (f : Bytes) : Prop :=
  ∃ h, headerOf f = some h ∧ f.take 12 = marker ∧ f.length = h.frameLen cfg

/-- The byte at an offset, for offsets inside the sequence. -/
def byteAt (f : Bytes) (i : Nat) : Byte := f.getD i 0#8

/-- Bit `i` of a byte, the bit of weight `2^i` (R8). -/
def bitOf (b : Byte) (i : Nat) : Bool := decide (b.toNat / 2 ^ i % 2 = 1)

/-- `BS` of a byte sequence of at least 80 bytes (R116), from its bytes at 15 and 16. -/
def bsOf (cfg : Config) (f : Bytes) : Nat :=
  match cfg.nativeOrder with
  | .little => (byteAt f 15).toNat + 256 * (byteAt f 16).toNat
  | .big => 256 * (byteAt f 15).toNat + (byteAt f 16).toNat

/-- `SB` of a byte sequence of at least 80 bytes (R117). -/
def sbOf (f : Bytes) : Nat := (byteAt f 17).toNat

/-- `W` of a byte sequence of at least 80 bytes (R112). -/
def widthOf (cfg : Config) (f : Bytes) : Width :=
  if bitOf (byteAt f 13) 7 then cfg.wOfBit7.one else cfg.wOfBit7.zero

/-- Is channel `c` enabled in the header of a byte sequence of at least 80 bytes (R115)? -/
def enabledIn (f : Bytes) (c : Channel) : Bool := bitOf (byteAt f 14) c.val

/-- The enabled channels, ascending. -/
def channelsOf (f : Bytes) : List Channel := (List.finRange 6).filter fun c => enabledIn f c

/-- The width in bytes. -/
def widthBytesOf (cfg : Config) (f : Bytes) : Nat := (widthOf cfg f).bytes

/-- `off(c)`: W times the number of enabled channels below `c` (R196). -/
def offsetOf (cfg : Config) (f : Bytes) (c : Channel) : Nat :=
  widthBytesOf cfg f * ((channelsOf f).countP fun d => d < c)

/-- `decode_W` of the bytes from offset `a` (R221): the three bytes most significant first, sign-extended, or the four
bytes in native order. -/
def decodedAt (cfg : Config) (f : Bytes) (a : Nat) : Sample :=
  match widthOf cfg f, cfg.nativeOrder with
  | .three, _ => (byteAt f a ++ byteAt f (a + 1) ++ byteAt f (a + 2)).signExtend 32
  | .four, .little => byteAt f (a + 3) ++ byteAt f (a + 2) ++ byteAt f (a + 1) ++ byteAt f a
  | .four, .big => byteAt f a ++ byteAt f (a + 1) ++ byteAt f (a + 2) ++ byteAt f (a + 3)

/-- Sample `k` of channel `c` (R221). -/
def sampleOf (cfg : Config) (f : Bytes) (c : Channel) (k : Nat) : Sample :=
  decodedAt cfg f (80 + k * sbOf f + offsetOf cfg f c)

/-- The first check of R191 that a byte sequence fails, in the order of R191 and R269; none when it passes all five. -/
def failureOf (cfg : Config) (f : Bytes) : Option ErrCause :=
  if f.length < 80 then some .shortHeader
  else if f.take 12 ≠ marker then some .badMarker
  else if bsOf cfg f * sbOf f = 0 then some .zeroLength
  else if sbOf f < (channelsOf f).length * widthBytesOf cfg f then some .slotOverrun
  else if f.length < 80 + bsOf cfg f * sbOf f then some .shortBody
  else none

/-- The header accessors that take a view and nothing else, as functions of the view. -/
def viewAccessors : List (View → Instr) :=
  [.hpMarker, .hpHdrsize, .hpWidth, .hpIntoff, .hpLowpwr, .hpLowrate, .hpCfg, (Instr.hpChen · 0), (Instr.hpChen · 1),
    (Instr.hpChen · 2), (Instr.hpChen · 3), (Instr.hpChen · 4), (Instr.hpChen · 5), .hpChmap, .hpBsamples, .hpSbytes,
    .hpFlen, .hpStime, .hpMisc, fun v => .hpBatt (.header v), fun v => .hpTemp (.header v), .hpRevboard, .hpGps,
    .hpGpsfix, fun v => .hpGpsage (.header v), .hpPosdisc, .hpPosstr, .hpTail, .hpInterval]

/-- The transcode of a frame that passes the checks, as the micro-operations of R190 given one by one: the check, one
collect for every sample in the order of R195, the hand-over. -/
def transcodeProgram (cfg : Config) (f : Bytes) : List Instr :=
  [.dxCheck f] ++
    ((channelsOf f).flatMap fun c =>
      (List.range (bsOf cfg f)).map fun k => Instr.cpCollect c k (sampleOf cfg f c k)) ++
    [.cpOut f]

end Sys2Proof.Machine
end

