-- ==== Sys2Proof/Certificates/Slice0/Obligations.lean ====
section
/-! DEFINITION. The statements for the provers.  Rule numbers are those of spec/. -/

open Sys2Proof Sys2Proof.Machine

/-! ### Encoding and stepping -/

/-- R101 and the vectors V-CO-01 of 95_test_vectors: these words decode to these operations. -/
def Obligations.SpecWordsDecode : Prop :=
  decodeCmd 0x000#11 = .nop ∧ decodeCmd 0x1A5#11 = .nop ∧ decodeCmd 0x253#11 = .pushb 0x53#8 ∧
    decodeCmd 0x200#11 = .pushb 0x00#8 ∧ decodeCmd 0x356#11 = .pushbL 0x56#8 ∧ decodeCmd 0x3FF#11 = .pushbL 0xFF#8 ∧
    decodeCmd 0x400#11 = .reset ∧ decodeCmd 0x5FF#11 = .reset ∧ decodeCmd 0x600#11 = .rsvd ∧ decodeCmd 0x7FF#11 = .rsvd

/-- R101: exactly one row of the command-word table accepts a word, and the word decodes as its row says, `data` being bits
7:0 taken as they are. -/
def Obligations.EveryCommandWordHasExactlyOneRow : Prop :=
  ∀ w : CmdWord,
    (cmdTable.filter fun r => r.accepts w).length = 1 ∧
      (w &&& 0x600#11 = 0x000#11 → decodeCmd w = .nop) ∧
      (w &&& 0x700#11 = 0x200#11 → decodeCmd w = .pushb (BitVec.ofNat 8 w.toNat)) ∧
      (w &&& 0x700#11 = 0x300#11 → decodeCmd w = .pushbL (BitVec.ofNat 8 w.toNat)) ∧
      (w &&& 0x600#11 = 0x400#11 → decodeCmd w = .reset) ∧
      (w &&& 0x600#11 = 0x600#11 → decodeCmd w = .rsvd)

/-- R101, R102, R106: decoding the words of any operation that has words gives its beats back: the operation itself for the
five command-port operations, the expansion of PUSH for every chunk. -/
def Obligations.DecodeUndoesEncode : Prop :=
  ∀ (i : Instr) (ws : List CmdWord), encode i = some ws → decodeWords ws = beatsOf i

/-- R101: every word's operation has a word that decodes to it; for PUSHB and PUSHB.L it is the same word, for the others
the word with `last` and `data` zero. -/
def Obligations.EncodeUndoesDecode : Prop :=
  ∀ w : CmdWord, ∃ v, encodeWord (decodeCmd w) = some v ∧ decodeCmd v = decodeCmd w ∧
    (cmdOp w = 1#2 → v = w) ∧ (cmdOp w ≠ 1#2 → v = w &&& 0x600#11)

/-- R247, R302: with no loop in progress a step runs the owner's next request: a command word is decoded and executed, an
operation with legal operands is executed, one with illegal operands is refused; with no request the block idles.  A table
word placed by `withFetchWord` is the next request.  (Input as a field of State is the model's: log entries 1 to 3; so is
the refusal of illegal operands: log entry 23.) -/
def Obligations.StepRunsTheDecodedRequest : Prop :=
  ∀ (s : State) (rest : List Request), select s = none →
    (∀ w, s.inp = .word w :: rest → step s = exec (decodeCmd w) { s with inp := rest }) ∧
      (∀ i, s.inp = .op i :: rest → i.wellFormed = true → step s = exec i { s with inp := rest }) ∧
      (∀ i, s.inp = .op i :: rest → i.wellFormed = false → step s = .refused .illFormed) ∧
      (s.inp = [] → step s = .next s) ∧
      (∀ w : Nat, w < 2048 →
        step (s.withFetchWord 16 w) = exec (decodeCmd (BitVec.ofNat 11 w)) { s with pos := .idle })

/-- R31, R103: while a progress loop is in progress a step runs the micro-operation that the tests select, and this is the
execution of the table's operation of that name; it always completes. -/
def Obligations.StepRunsTheSelectedMicroOp : Prop :=
  ∀ (s : State) (m : FsOp), select s = some m →
    step s = exec m.instr s ∧ exec m.instr s = .next (m.apply s)

/-! ### Reset, invariants, whole machine -/

/-- R300: power-on reset. -/
def Obligations.PowerOnResetValues : Prop :=
  State.reset.buf = [] ∧ State.reset.cached = none ∧ State.reset.lv = false ∧
    State.reset.st = .accumulatingHeader ∧ State.reset.fseq = 1 ∧ State.reset.chunkOpen = false ∧ State.reset.out = []

/-- The invariant of R22, R24, R25, R26, R29 and R31 holds at power-on reset. -/
def Obligations.InvariantHoldsAtReset : Prop := Inv State.reset

/-- The invariant of R22, R24, R25, R26, R29 and R31 is kept by every step from every state that has it. -/
def Obligations.StepKeepsInvariant : Prop :=
  ∀ s t : State, Inv s → step s = .next t → Inv t

/-- R103: while the loop is in progress some micro-operation is selected (so exactly one, `select` being a function). -/
def Obligations.LoopAlwaysSelects : Prop :=
  ∀ s : State, Inv s → s.pos ≠ .idle → ∃ m, select s = some m

/-- R246: no operation changes the configuration; nor does one take a request away. -/
def Obligations.ConfigurationNeverChanges : Prop :=
  ∀ (i : Instr) (s t : State), exec i s = .next t → t.cfg = s.cfg ∧ t.inp = s.inp

/-- R3, R318: nothing an operation does depends on the events emitted before it. -/
def Obligations.NoFeedbackFromSinks : Prop :=
  ∀ (i : Instr) (s : State) (o : List Event),
    (∀ t, exec i s = .next t →
      ∃ es, t.out = s.out ++ es ∧ exec i { s with out := o } = .next { t with out := o ++ es }) ∧
      (∀ f, exec i s = .fault f → exec i { s with out := o } = .fault f) ∧
      (∀ r, exec i s = .refused r → exec i { s with out := o } = .refused r)

/-- R54, R55, R56, R166: whatever an operation other than RESET does, the buffer afterwards is the buffer with the pushed
bytes appended, less a front part whose length is exactly what the WARN counts and FRAME lengths of its events add up to. -/
def Obligations.EveryByteIsAccountedFor : Prop :=
  ∀ (i : Instr) (s t : State), i ≠ .reset → exec i s = .next t →
    ∃ es, t.out = s.out ++ es ∧ bytesOut es ≤ s.buf.length + (bytesPushed i).length ∧
      t.buf = (s.buf ++ bytesPushed i).drop (bytesOut es)

/-- R225: FSEQ advances by one for each SAMPLES event and by nothing else, and successive records carry successive
indices; only RESET and CP.RESTART set it back. -/
def Obligations.FseqCountsTheRecords : Prop :=
  ∀ (i : Instr) (s t : State), i ≠ .reset → i ≠ .cpRestart → exec i s = .next t →
    ∃ es, t.out = s.out ++ es ∧ t.fseq = s.fseq + (es.filterMap Event.fseq?).length ∧
      es.filterMap Event.fseq? = List.range' s.fseq (es.filterMap Event.fseq?).length

/-- R301: only RESET leaves AccumulatingBody without receiving the declared number of bytes: any other operation that ends
the wait for `l` bytes emits a frame of `l` bytes. -/
def Obligations.OnlyResetEndsTheBodyEarly : Prop :=
  ∀ (i : Instr) (s t : State) (l : Nat), s.cached = some l → exec i s = .next t → i ≠ .reset →
    t.cached = some l ∨
      (l ≤ s.buf.length + (bytesPushed i).length ∧
        ∃ es f, t.out = s.out ++ es ∧ Event.frame f ∈ es ∧ f.length = l)

/-! ### The command port -/

/-- R240: NOP changes no state and emits no event, and every word with op = 00 is NOP, its canonical word 0x000 among
them. -/
def Obligations.NopDoesNothing : Prop :=
  (∀ s : State, exec .nop s = .next s) ∧ (∀ w : CmdWord, w &&& 0x600#11 = 0x000#11 → decodeCmd w = .nop) ∧
    encodeWord .nop = some 0x000#11

/-- R241: the word 0x200 + d appends the byte, leaves the chunk open and runs nothing; refused when the buffer is full. -/
def Obligations.PushbAppendsOneByte : Prop :=
  ∀ (d : Byte) (s : State),
    decodeCmd (0x200#11 + d.setWidth 11) = .pushb d ∧
    ((∀ c, s.cfg.bufCap = some c → s.buf.length + 1 ≤ c) →
      exec (.pushb d) s = .next { s with buf := s.buf ++ [d], chunkOpen := true }) ∧
      ((∃ c, s.cfg.bufCap = some c ∧ c < s.buf.length + 1) → exec (.pushb d) s = .refused .bufferFull)

/-- R242, and the termination of R151: the word 0x300 + d appends the last byte, closes the chunk and runs the progress loop
from test (a) until it is at rest; the loop always comes to rest; refused when the buffer is full. -/
def Obligations.PushbLRunsTheLoopToRest : Prop :=
  ∀ (d : Byte) (s : State),
    decodeCmd (0x300#11 + d.setWidth 11) = .pushbL d ∧
    ((∀ c, s.cfg.bufCap = some c → s.buf.length + 1 ≤ c) →
      ∃ n u, u = progress n { s with buf := s.buf ++ [d], chunkOpen := false, pos := .testA } ∧ u.pos = .idle ∧
        exec (.pushbL d) s = .next { u with ret := s.ret }) ∧
      ((∃ c, s.cfg.bufCap = some c ∧ c < s.buf.length + 1) → exec (.pushbL d) s = .refused .bufferFull)

/-- R150, R151: PUSH appends the chunk, runs the progress loop from test (a) until it is at rest and returns the number of
bytes; an empty chunk returns 0 with no event and no change of state.  R26's reason for the latter: between operations,
with no chunk open, the loop started at test (a) with no new byte comes to rest in the state it started from, the search
result it returns inside aside.  (The short cut of the empty PUSH is the model's: log entry 12.) -/
def Obligations.PushRunsTheLoopToRest : Prop :=
  (∀ s : State, exec (.push []) s = .next { s with ret := .consumed 0 }) ∧
    (∀ s : State, Inv s → s.pos = .idle → s.chunkOpen = false →
      ∃ n u, u = progress n { s with pos := .testA } ∧ u.pos = .idle ∧ { u with ret := s.ret } = s) ∧
    ∀ (chunk : Bytes) (s : State), chunk ≠ [] →
      (∀ c, s.cfg.bufCap = some c → s.buf.length + chunk.length ≤ c) →
      ∃ n u, u = progress n { s with buf := s.buf ++ chunk, chunkOpen := false, pos := .testA } ∧ u.pos = .idle ∧
        exec (.push chunk) s = .next { u with ret := .consumed chunk.length }

/-- R72: with an infinite capacity every append is admitted; with a finite one exactly the appends that would make LEN
exceed it are refused.  (The empty PUSH is no append.) -/
def Obligations.AppendsAreRefusedExactlyWhenFull : Prop :=
  ∀ (s : State) (d : Byte) (chunk : Bytes),
    (exec (.pushb d) s = .refused .bufferFull ↔ ∃ c, s.cfg.bufCap = some c ∧ c < s.buf.length + 1) ∧
      (exec (.pushbL d) s = .refused .bufferFull ↔ ∃ c, s.cfg.bufCap = some c ∧ c < s.buf.length + 1) ∧
      (exec (.fsAppend chunk) s = .refused .bufferFull ↔
        ∃ c, s.cfg.bufCap = some c ∧ c < s.buf.length + chunk.length) ∧
      exec (.push []) s ≠ .refused .bufferFull ∧
      (chunk ≠ [] →
        (exec (.push chunk) s = .refused .bufferFull ↔
          ∃ c, s.cfg.bufCap = some c ∧ c < s.buf.length + chunk.length))

/-- R245, R106: PUSH of a chunk has the same effect as its beats, event for event and in every state; only the return value
of PUSH is added. -/
def Obligations.PushEqualsItsBeats : Prop :=
  ∀ (chunk : Bytes) (s t : State), chunk ≠ [] → exec (.push chunk) s = .next t →
    runInstrs (beats chunk) s = .next { t with ret := s.ret }

/-- R243: RESET clears the buffer and the cached length, closes the chunk, restarts the index, emits exactly SEQ_RESTART and
keeps the configuration, in any state; every word with op = 10 is RESET.  (That the transient `pos` and `dx` go and the
model's own `inp`, earlier `out` and `ret` stay is the model's: log entry 13.) -/
def Obligations.ResetClearsTheBlock : Prop :=
  (∀ s : State,
    exec .reset s =
      .next { State.reset with cfg := s.cfg, inp := s.inp, out := s.out ++ [.seqRestart], ret := s.ret }) ∧
    ∀ w : CmdWord, w &&& 0x600#11 = 0x400#11 → decodeCmd w = .reset

/-- R244: RSVD is refused in every state, and every word with op = 11 is RSVD. -/
def Obligations.ReservedCommandIsRefused : Prop :=
  (∀ s : State, exec .rsvd s = .refused .reservedCommand) ∧
    ∀ w : CmdWord, w &&& 0x600#11 = 0x600#11 → decodeCmd w = .rsvd

/-! ### The frame synchronizer -/

/-- R152, R54: FS.APPEND puts the chunk behind the buffer and changes no other element; old offsets keep their bytes, new
ones hold the chunk.  (That FS.APPEND asked for alone sets the loop position to test (a) is the model's: log entry 4.) -/
def Obligations.AppendKeepsOldOffsets : Prop :=
  ∀ (chunk : Bytes) (s : State), (∀ c, s.cfg.bufCap = some c → s.buf.length + chunk.length ≤ c) →
    exec (.fsAppend chunk) s = .next { s with buf := s.buf ++ chunk, pos := .testA } ∧
      ∀ t, exec (.fsAppend chunk) s = .next t →
        (∀ i, i < s.buf.length → Memory.read t.buf i = Memory.read s.buf i) ∧
          ∀ i, Memory.read t.buf (s.buf.length + i) = Memory.read chunk i

/-- R153, R162: FS.WAITHDR on fewer than 80 bytes and FS.WAITBODY on fewer than the cached length stop the loop and change
nothing else.  (That they run when asked for alone, and the loop position they leave, are the model's: log entry 4.) -/
def Obligations.WaitsChangeNothing : Prop :=
  (∀ s : State, s.buf.length < 80 → exec .fsWaithdr s = .next { s with pos := .idle }) ∧
    ∀ (s : State) (l : Nat), s.cached = some l → s.buf.length < l →
      exec .fsWaitbody s = .next { s with pos := .idle }

/-- R154: FS.SEARCH on 80 or more bytes gives the least offset at which all 12 marker bytes match, or none if there is no
such offset, and then the tail length; it changes nothing else.  (That it runs when asked for alone, and the loop position
it leaves, are the model's: log entry 4.) -/
def Obligations.SearchFindsTheFirstMarker : Prop :=
  ∀ s : State, 80 ≤ s.buf.length →
    ∃ k j, exec .fsSearch s = .next { s with pos := .searched, ret := .search k j } ∧
      (∀ i, k = some i →
        i + 12 ≤ s.buf.length ∧ (s.buf.drop i).take 12 = marker ∧ ∀ i' < i, (s.buf.drop i').take 12 ≠ marker) ∧
      (k = none → j = some (tailLen s.buf) ∧ ∀ i, (s.buf.drop i).take 12 ≠ marker)

/-- R157: `tail` is the greatest length 1 to 11 of a trailing part that is the start of the marker, or 0; at most one length
qualifies. -/
def Obligations.TailIsTheTrailingMarkerPart : Prop :=
  ∀ b : Bytes,
    tailLen b ≤ 11 ∧ tailLen b ≤ b.length ∧
      b.drop (b.length - tailLen b) = marker.take (tailLen b) ∧
      ∀ j, 1 ≤ j → j ≤ 11 → j ≤ b.length → b.drop (b.length - j) = marker.take j → j = tailLen b

/-- R83: two occurrences of the marker in a byte sequence never overlap. -/
def Obligations.MarkersNeverOverlap : Prop :=
  ∀ (b : Bytes) (i k : Nat), i < k → (b.drop i).take 12 = marker → (b.drop k).take 12 = marker → i + 12 ≤ k

/-- R156, R158, R159: the three discards, each with its warning and its exact count.  FS.DROPK drops the bytes before the
first marker; FS.KEEPTAIL keeps the trailing marker part, at least 69 bytes being discarded; FS.FLUSH discards all.  (That
they run when asked for alone, and the loop position they leave, are the model's: log entry 4.) -/
def Obligations.DiscardsWarnWithTheCount : Prop :=
  ∀ s : State, 80 ≤ s.buf.length →
    (∀ k, findMarker s.buf = some k → 0 < k →
      exec .fsDropk s =
        .next { s with buf := s.buf.drop k, out := s.out ++ [.warn .dropToMarker k], pos := .testA }) ∧
      (∀ j, findMarker s.buf = none → tailLen s.buf = j → 0 < j →
        69 ≤ s.buf.length - j ∧
          exec .fsKeeptail s =
            .next { s with buf := marker.take j, out := s.out ++ [.warn .keepTail (s.buf.length - j)], pos := .idle }) ∧
      (findMarker s.buf = none → tailLen s.buf = 0 →
        exec .fsFlush s =
          .next { s with buf := [], out := s.out ++ [.warn .flushAll s.buf.length], pos := .testA })

/-- R155, R161: with the marker at offset 0 of 80 or more bytes, FS.SYNC0 changes no state, and FS.LEN caches
`80 + BS * SB`, a number from 80 to 16 711 505, and enters AccumulatingBody, or keeps the length already cached.  (That
they run when asked for alone, and the loop position they leave, are the model's: log entry 4.) -/
def Obligations.LengthIsCachedFromTheHeader : Prop :=
  ∀ s : State, 80 ≤ s.buf.length → s.buf.take 12 = marker →
    exec .fsSync0 s = .next { s with pos := .stepC } ∧
      (s.cached = none →
        exec .fsLen s =
          .next { s with cached := some (80 + bsOf s.cfg s.buf * sbOf s.buf), st := .accumulatingBody, pos := .stepD }) ∧
      (∀ l, s.cached = some l → exec .fsLen s = .next { s with pos := .stepD }) ∧
      80 ≤ 80 + bsOf s.cfg s.buf * sbOf s.buf ∧ 80 + bsOf s.cfg s.buf * sbOf s.buf ≤ 16711505

/-- R163: FS.EMIT cuts the `L` oldest bytes as a frame, clears the cached length, goes back to AccumulatingHeader, emits the
frame, and transcodes it in the same operation, with exactly one event of the transcode directly after the FRAME event.
(That it runs when asked for alone, and the loop position it leaves, are the model's: log entry 4.) -/
def Obligations.EmitCutsAndTranscodes : Prop :=
  ∀ (s : State) (l : Nat), s.cached = some l → l ≤ s.buf.length →
    ∃ u e,
      exec (.dxTranscode (s.buf.take l))
          { s with buf := s.buf.drop l, cached := none, st := .accumulatingHeader,
                   out := s.out ++ [.frame (s.buf.take l)] } = .next u ∧
        exec .fsEmit s = .next { u with pos := .testA } ∧
        u.buf = s.buf.drop l ∧ u.cached = none ∧ u.st = .accumulatingHeader ∧ u.cfg = s.cfg ∧ u.inp = s.inp ∧
        u.chunkOpen = s.chunkOpen ∧ u.ret = s.ret ∧ u.out = s.out ++ [.frame (s.buf.take l), e] ∧
        e.frame? = none ∧ e.isWarn = false

/-- R100, R103: a micro-operation of the loop is refused, by name, in a state that does not select it.  (The name of the
refusal is the model's: log entry 4.) -/
def Obligations.MicroOpsNeedTheirSelection : Prop :=
  ∀ s : State,
    (80 ≤ s.buf.length → exec .fsWaithdr s = .refused .notSelected) ∧
      (s.buf.length < 80 → exec .fsSearch s = .refused .notSelected) ∧
      (s.buf.length < 80 ∨ findMarker s.buf ≠ some 0 → exec .fsSync0 s = .refused .notSelected) ∧
      (s.buf.length < 80 ∨ (∀ k, findMarker s.buf ≠ some (k + 1)) → exec .fsDropk s = .refused .notSelected) ∧
      (s.buf.length < 80 ∨ findMarker s.buf ≠ none ∨ tailLen s.buf = 0 →
        exec .fsKeeptail s = .refused .notSelected) ∧
      (s.buf.length < 80 ∨ findMarker s.buf ≠ none ∨ 0 < tailLen s.buf → exec .fsFlush s = .refused .notSelected) ∧
      (s.buf.length < 80 ∨ findMarker s.buf ≠ some 0 → exec .fsLen s = .refused .notSelected) ∧
      (s.cached = none ∨ (∃ l, s.cached = some l ∧ l ≤ s.buf.length) →
        exec .fsWaitbody s = .refused .notSelected) ∧
      (s.cached = none ∨ (∃ l, s.cached = some l ∧ s.buf.length < l) → exec .fsEmit s = .refused .notSelected)

/-- R31, R103, R151: the progress loop inside PUSH is the run of the machine's own steps over the selected
micro-operations: with nothing requested, `n` steps are `n` rounds of the loop. -/
def Obligations.LoopIsARunOfSteps : Prop :=
  ∀ (n : Nat) (s : State), s.inp = [] → core.run n s = .next (progress n s)

/-- R164: from an empty, closed, idle block, valid frames delivered as one stream and cut into chunks in any way come out as
exactly those frames, in order and byte-identical, with no warning, and leave the block empty. -/
def Obligations.LosslessReframing : Prop :=
  ∀ (s : State) (fs chunks : List Bytes),
    s.buf = [] → s.cached = none → s.st = .accumulatingHeader → s.pos = .idle → s.chunkOpen = false →
    (∀ f ∈ fs, ValidFrame s.cfg f) → chunks.flatten = fs.flatten →
    (∀ c, s.cfg.bufCap = some c → fs.flatten.length ≤ c) →
    ∃ t es, runInstrs (chunks.map Instr.push) s = .next t ∧ t.out = s.out ++ es ∧
      es.filterMap Event.frame? = fs ∧ (∀ e ∈ es, e.isWarn = false) ∧
      t.buf = [] ∧ t.cached = none ∧ t.st = .accumulatingHeader ∧ t.pos = .idle ∧ t.chunkOpen = false

/-- R165: the FRAME, SAMPLES and ERR events of a stream do not depend on how it is cut into chunks: from any state that has
the invariant, two runs over the same bytes emit the same events but for warnings. -/
def Obligations.FramesDoNotDependOnChunking : Prop :=
  ∀ (s t u : State) (xs ys : List Bytes) (es fs : List Event), Inv s → s.pos = .idle → xs.flatten = ys.flatten →
    runInstrs (xs.map Instr.push) s = .next t → runInstrs (ys.map Instr.push) s = .next u →
    t.out = s.out ++ es → u.out = s.out ++ fs →
    es.filter (fun e => !e.isWarn) = fs.filter (fun e => !e.isWarn) ∧ t.fseq = u.fseq

/-! ### The header parser -/

/-- R110, R112, R113, R114, R131, R115: the one-bit fields, the width and the channel mask, read from any view of at least
80 bytes; nothing but the returned value changes. -/
def Obligations.FlagAccessors : Prop :=
  ∀ (v : View) (s : State) (f : Bytes), viewBytes v s = f → 80 ≤ f.length →
    exec (.hpMarker v) s = .next { s with ret := .flag (decide (f.take 12 = marker)) } ∧
      exec (.hpWidth v) s = .next { s with ret := .width (widthOf s.cfg f) } ∧
      exec (.hpIntoff v) s = .next { s with ret := .flag (bitOf (byteAt f 13) 6) } ∧
      exec (.hpLowpwr v) s = .next { s with ret := .flag (bitOf (byteAt f 13) 5) } ∧
      exec (.hpLowrate v) s = .next { s with ret := .flag (bitOf (byteAt f 13) 4) } ∧
      ∀ c : Channel, exec (.hpChen v c) s =
        .next { s with ret := .chEn (bitOf (byteAt f 14) c.val) (BitVec.ofNat 6 (byteAt f 14).toNat)
                                (channelsOf f).length }

/-- R111, R132, R135, R116, R117, R118: the byte fields and the declared length, whose 80 is a constant. -/
def Obligations.NumberAccessors : Prop :=
  ∀ (v : View) (s : State) (f : Bytes), viewBytes v s = f → 80 ≤ f.length →
    exec (.hpHdrsize v) s =
        .next { s with ret := .hdrSize (byteAt f 12).toNat (decide ((byteAt f 12).toNat = 80)) } ∧
      exec (.hpCfg v) s =
        .next { s with ret := .cfg (byteAt f 13).toNat (BitVec.ofNat 4 (byteAt f 13).toNat) } ∧
      exec (.hpChmap v) s = .next { s with ret := .nat (byteAt f 14).toNat } ∧
      exec (.hpBsamples v) s = .next { s with ret := .nat (bsOf s.cfg f) } ∧
      exec (.hpSbytes v) s = .next { s with ret := .nat (byteAt f 17).toNat } ∧
      exec (.hpFlen v) s = .next { s with ret := .nat (80 + bsOf s.cfg f * (byteAt f 17).toNat) }

/-- R119, R120, R124, R128, R129: the raw ranges, in offset order. -/
def Obligations.RawRangeAccessors : Prop :=
  ∀ (v : View) (s : State) (f : Bytes), viewBytes v s = f → 80 ≤ f.length →
    exec (.hpStime v) s = .next { s with ret := .bytes ((f.drop 18).take 8) } ∧
      exec (.hpMisc v) s = .next { s with ret := .bytes ((f.drop 26).take 7) } ∧
      exec (.hpGps v) s = .next { s with ret := .bytes ((f.drop 33).take 20) } ∧
      exec (.hpPosstr v) s = .next { s with ret := .bytes ((f.drop 54).take 23) } ∧
      exec (.hpTail v) s = .next { s with ret := .bytes ((f.drop 77).take 3) }

/-- Revision and board identifiers are exposed as part of `misc_raw`, and as nothing else: HP.REVBOARD answers the 7 bytes of
HP.MISC.  (That the accessor answers the whole range is the model's reading: log entry 17.) -/
def Obligations.RevisionAndBoardAreExposedRaw : Prop :=
  ∀ (v : View) (s : State) (f : Bytes), viewBytes v s = f → 80 ≤ f.length →
    exec (.hpRevboard v) s = .next { s with ret := .bytes ((f.drop 26).take 7) } ∧
      exec (.hpRevboard v) s = exec (.hpMisc v) s

/-- R121, R122, R130: battery voltage `raw * 25 / 512` and temperature `(625 * raw - 76800) / 1280` of a given reading or of
the open parameter's reading of `misc_raw`; the interval is the table's entry for bits 7 and 4, positive, and the rate 1000
over it. -/
def Obligations.FormulaAccessors : Prop :=
  (∀ (raw : Nat) (s : State),
      exec (.hpBatt (.given raw)) s = .next { s with ret := .rational ((raw : Rat) * 25 / 512) } ∧
        exec (.hpTemp (.given raw)) s = .next { s with ret := .rational ((625 * (raw : Rat) - 76800) / 1280) }) ∧
    ∀ (v : View) (s : State) (f : Bytes), viewBytes v s = f → 80 ≤ f.length →
      exec (.hpBatt (.header v)) s =
          .next { s with ret := .rational ((Config.battRaw ((f.drop 26).take 7) : Rat) * 25 / 512) } ∧
        exec (.hpTemp (.header v)) s =
          .next { s with ret := .rational ((625 * (Config.tempRaw ((f.drop 26).take 7) : Rat) - 76800) / 1280) } ∧
        ∃ ms, ms = s.cfg.intervalLut.lookup (bitOf (byteAt f 13) 7) (bitOf (byteAt f 13) 4) ∧ 0 < ms ∧
          exec (.hpInterval v) s = .next { s with ret := .interval ms (1000 / ms) }

/-- R125, R126, R127: the GPS fix by its open parameter; the age classes, an age of exactly 10 s having some class that
nothing constrains; the position discriminator, each of its 256 values in exactly the class the spec gives it. -/
def Obligations.ClassAccessors : Prop :=
  (∀ (s : State) (a : Rat),
      exec (.hpGpsage (.given none)) s = .next { s with ret := .gpsAge .unavailable } ∧
        (a < 10 → exec (.hpGpsage (.given (some a))) s = .next { s with ret := .gpsAge .fresh }) ∧
        (10 < a → exec (.hpGpsage (.given (some a))) s = .next { s with ret := .gpsAge .old }) ∧
        ∃ g, exec (.hpGpsage (.given (some 10))) s = .next { s with ret := .gpsAge g }) ∧
    ∀ (v : View) (s : State) (f : Bytes), viewBytes v s = f → 80 ≤ f.length →
      exec (.hpGpsfix v) s = .next { s with ret := .gpsFix (Config.gpsFix ((f.drop 33).take 20)) } ∧
        (∃ g, exec (.hpGpsage (.header v)) s = .next { s with ret := .gpsAge g } ∧
          (Config.gpsAgeSeconds ((f.drop 33).take 20) = none → g = .unavailable) ∧
          (∀ a, Config.gpsAgeSeconds ((f.drop 33).take 20) = some a → a < 10 → g = .fresh) ∧
          ∀ a, Config.gpsAgeSeconds ((f.drop 33).take 20) = some a → 10 < a → g = .old) ∧
        ∃ d cls, d = (byteAt f 53).toNat ∧ exec (.hpPosdisc v) s = .next { s with ret := .posDisc d cls } ∧
          (cls = .invalid ↔ d = 255) ∧ (cls = .position ↔ d = 0) ∧ (cls = .compass ↔ d = 1) ∧
          (cls = .undefined ↔ 2 ≤ d ∧ d ≤ 254)

/-- R134: on a view of fewer than 80 bytes no accessor has a value: it stops, by name.  (The stop is a fault of the model:
log entry 15.) -/
def Obligations.AccessorsNeedEightyBytes : Prop :=
  ∀ (mk : View → Instr) (v : View) (s : State), mk ∈ viewAccessors → (viewBytes v s).length < 80 →
    exec (mk v) s = .fault .headerOutOfBounds

/-- R61, R133, R134: an accessor's result depends on the bytes of its own field only. -/
def Obligations.AccessorsReadOnlyTheirField : Prop :=
  ∀ (mk : View → Instr) (f g : Bytes) (s : State) (off width : Nat), mk ∈ viewAccessors →
    hdrField (mk .buf) = some (off, width) → 80 ≤ f.length → 80 ≤ g.length →
    (f.drop off).take width = (g.drop off).take width →
    exec (mk (.bytes f)) s = exec (mk (.bytes g)) s

/-! ### The demultiplexer and the converter -/

/-- R199: DX.SEXT24 gives `u` when `u < 2^23`, else `u - 2^24`; bits 31:24 are copies of bit 23 and bits 23:0 are `u`.
(That it runs in every state when asked for alone is the model's: log entry 26.) -/
def Obligations.SignExtensionFromBit23 : Prop :=
  ∀ (u : BitVec 24) (s : State),
    ∃ v : Sample, exec (.dxSext24 u) s = .next { s with ret := .sample v } ∧
      (u.toNat < 8388608 → v.toInt = u.toNat) ∧ (8388608 ≤ u.toNat → v.toInt = (u.toNat : Int) - 16777216) ∧
      (∀ i, i < 24 → v.getLsbD i = u.getLsbD i) ∧ ∀ i, 24 ≤ i → i < 32 → v.getLsbD i = u.getLsbD 23

/-- R198: DX.LOAD3 gives `65536*b0 + 256*b1 + b2` whatever NATIVE_ORDER is; it stops on bytes outside the frame.
(That it runs whatever `W` is when asked for alone is the model's, log entry 26; so is the form of the stop, log entry
15.) -/
def Obligations.ThreeByteLoad : Prop :=
  ∀ (f : Bytes) (a : Nat) (s : State),
    (a + 3 ≤ f.length →
      ∃ u : BitVec 24, exec (.dxLoad3 f a) s = .next { s with ret := .raw24 u } ∧
        u.toNat = 65536 * (byteAt f a).toNat + 256 * (byteAt f (a + 1)).toNat + (byteAt f (a + 2)).toNat) ∧
      (f.length < a + 3 → exec (.dxLoad3 f a) s = .fault .sampleOutOfBounds)

/-- R200: DX.LOAD4 gives the two's complement integer of the four bytes in NATIVE_ORDER; it stops on bytes outside the
frame.  (That it runs whatever `W` is when asked for alone is the model's, log entry 26; so is the form of the stop, log entry
15.) -/
def Obligations.FourByteLoad : Prop :=
  ∀ (f : Bytes) (a : Nat) (s : State),
    (a + 4 ≤ f.length →
      ∃ (v : Sample) (image : Nat), exec (.dxLoad4 f a) s = .next { s with ret := .sample v } ∧
        (s.cfg.nativeOrder = .little →
          image = (byteAt f a).toNat + 2 ^ 8 * (byteAt f (a + 1)).toNat + 2 ^ 16 * (byteAt f (a + 2)).toNat +
            2 ^ 24 * (byteAt f (a + 3)).toNat) ∧
        (s.cfg.nativeOrder = .big →
          image = 2 ^ 24 * (byteAt f a).toNat + 2 ^ 16 * (byteAt f (a + 1)).toNat +
            2 ^ 8 * (byteAt f (a + 2)).toNat + (byteAt f (a + 3)).toNat) ∧
        (image < 2 ^ 31 → v.toInt = image) ∧ (2 ^ 31 ≤ image → v.toInt = (image : Int) - 2 ^ 32)) ∧
      (f.length < a + 4 → exec (.dxLoad4 f a) s = .fault .sampleOutOfBounds)

/-- R196, R197: DX.OFFSET answers for every mask, width and channel; for an enabled channel the answer is W times the number
of enabled channels below it, at most 20, and the channel's sample ends inside the `n * W` bytes.  DX.ADDR answers for all
operands; inside the ranges of R197 the answer is `80 + s * SB + off`.  (That both run when asked for alone is the model's,
log entry 26; so is the free value they answer where the rules state none, log entry 28.) -/
def Obligations.OffsetsAndAddresses : Prop :=
  (∀ (en : BitVec 6) (w : Width) (c : Channel) (s : State),
      ∃ off, exec (.dxOffset en w c) s = .next { s with ret := .nat off } ∧
        (en.getLsbD c.val = true →
          off = w.bytes * ((List.finRange 6).countP fun d => en.getLsbD d.val && decide (d < c)) ∧ off ≤ 20 ∧
            off + w.bytes ≤ ((List.finRange 6).countP fun d => en.getLsbD d.val) * w.bytes)) ∧
    ∀ (slot sb off : Nat) (s : State),
      ∃ a, exec (.dxAddr slot sb off) s = .next { s with ret := .nat a } ∧
        (slot < 65535 → sb < 256 → off ≤ 20 → a = 80 + slot * sb + off)

/-- R191: DX.CHECK raises the first failing check, in the order of the rule; when all pass it raises nothing.  (That a
passing check opens the transcode's registers for micro-operations given one by one is the model's, log entry 10; so are the
result it returns, log entry 29, and that it runs in every state when asked for alone, log entry 26.) -/
def Obligations.ChecksInTheirOrder : Prop :=
  ∀ (f : Bytes) (s : State),
    (∀ c, failureOf s.cfg f = some c →
      exec (.dxCheck f) s =
        .next { s with out := s.out ++ [.err c.cls c], dx := none, ret := .checked (some c) }) ∧
      (failureOf s.cfg f = none →
        exec (.dxCheck f) s =
          .next { s with
            dx := some { f := f, w := widthOf s.cfg f, en := BitVec.ofNat 6 (byteAt f 14).toNat, bs := bsOf s.cfg f,
                         sb := sbOf f, ch := Vector.replicate 6 [] }
            ret := .checked none })

/-- R266, R263, R264: a frame that fails a check yields one ERR event and nothing else: no SAMPLES, FSEQ, BUF, LV and ST as
they were; the class is MalformedFrame for a short frame and InvalidHeaderField for the rest. -/
def Obligations.ErrorsSkipOnlyTheFrame : Prop :=
  ∀ (f : Bytes) (s : State) (c : ErrCause), failureOf s.cfg f = some c →
    exec (.dxTranscode f) s = .next { s with out := s.out ++ [.err c.cls c], dx := none } ∧
      (c.cls = .malformedFrame ↔ c = .shortHeader ∨ c = .shortBody) ∧
      (c.cls = .invalidHeaderField ↔ c = .zeroLength ∨ c = .slotOverrun ∨ c = .badMarker)

/-- R190, R221, R222: a frame that passes the checks yields one SAMPLES event and advances FSEQ by one.  The record carries
the old FSEQ, the 80 header bytes, W, EN, BS, the raw time and the interval; it has a lane for every enabled channel,
ascending, and for no other; each lane holds exactly BS samples, sample `k` being the decoding of the `W` bytes at
`80 + k*SB + off(c)`.  (That a disabled channel has no lane, where D14 writes of six empty lanes, is the model's reading: log
entry 11.) -/
def Obligations.TranscodeYieldsTheLanes : Prop :=
  ∀ (f : Bytes) (s : State), failureOf s.cfg f = none →
    ∃ rec : SampleRecord,
      exec (.dxTranscode f) s = .next { s with out := s.out ++ [.samples rec], fseq := s.fseq + 1, dx := none } ∧
        rec.fseq = s.fseq ∧ rec.header = f.take 80 ∧ rec.w = widthOf s.cfg f ∧
        rec.en = BitVec.ofNat 6 (byteAt f 14).toNat ∧ rec.bs = bsOf s.cfg f ∧ rec.stimeRaw = (f.drop 18).take 8 ∧
        rec.intervalMs = s.cfg.intervalLut.lookup (bitOf (byteAt f 13) 7) (bitOf (byteAt f 13) 4) ∧
        rec.lanes.map Prod.fst = channelsOf f ∧
        ∀ c lane, (c, lane) ∈ rec.lanes →
          lane.length = bsOf s.cfg f ∧ ∀ k, k < bsOf s.cfg f → lane[k]? = some (sampleOf s.cfg f c k)

/-- R228: the record of a transcoded frame carries `n * BS` samples. -/
def Obligations.RecordCarriesAllSamples : Prop :=
  ∀ (f : Bytes) (s : State), failureOf s.cfg f = none →
    ∃ t rec, exec (.dxTranscode f) s = .next t ∧ t.out = s.out ++ [.samples rec] ∧
      rec.sampleCount = (channelsOf f).length * bsOf s.cfg f

/-- R64: for a frame that the checks accept, the sample that the transcode collects for an enabled channel and `k < BS` is
loaded from `W` bytes that lie after the header and inside the declared length, which lies inside the frame; the load answers
a value, the transcode collects it, and no byte outside those `W` has a part in it. -/
def Obligations.ReadsStayInsideTheFrame : Prop :=
  ∀ (cfg : Config) (f : Bytes) (h : Header) (c : Channel) (k a : Nat), checkFrame cfg f = .ok h →
    chEn h.en c = true → k < h.blockSamples cfg →
    a = sampleAddr k h.sampleBytes (channelOffset h.en (h.width cfg) c) →
    80 ≤ a ∧ a + (h.width cfg).bytes ≤ h.frameLen cfg ∧ h.frameLen cfg ≤ f.length ∧
      ∃ v, loadSample cfg (h.width cfg) f a = some v ∧
        (∀ ch, demuxSample cfg c { startRegs cfg f h with ch := ch } k =
          collect c v { startRegs cfg f h with ch := ch }) ∧
        ∀ g, (g.drop a).take (h.width cfg).bytes = (f.drop a).take (h.width cfg).bytes →
          loadSample cfg (h.width cfg) g a = some v

/-- R204: for a frame that the checks accept, the addresses that the transcode loads two different samples from give disjoint
ranges of `W` bytes. -/
def Obligations.SamplesNeverOverlap : Prop :=
  ∀ (cfg : Config) (f : Bytes) (h : Header) (c d : Channel) (k m a b : Nat), checkFrame cfg f = .ok h →
    chEn h.en c = true → chEn h.en d = true → k < h.blockSamples cfg → m < h.blockSamples cfg → (c, k) ≠ (d, m) →
    a = sampleAddr k h.sampleBytes (channelOffset h.en (h.width cfg) c) →
    b = sampleAddr m h.sampleBytes (channelOffset h.en (h.width cfg) d) →
    a + (h.width cfg).bytes ≤ b ∨ b + (h.width cfg).bytes ≤ a

/-- R84, R94, R89: HeaderSize, the reserved bits of ConfigWord and ChannelBitMap, the flags the block passes through and the
header bytes from 18 on do not affect the transcode but for the header copy, the raw time and the interval: two frames that
agree in the marker, ConfigWord bit 7, ChannelBitMap bits 5:0, BlockSamples, SampleBytes and body have the same lanes or
the same error. -/
def Obligations.ReservedBitsDoNotMatter : Prop :=
  ∀ (f g : Bytes) (s t u : State),
    f.take 12 = g.take 12 → bitOf (byteAt f 13) 7 = bitOf (byteAt g 13) 7 →
    (byteAt f 14).toNat % 64 = (byteAt g 14).toNat % 64 → byteAt f 15 = byteAt g 15 → byteAt f 16 = byteAt g 16 →
    byteAt f 17 = byteAt g 17 → f.drop 80 = g.drop 80 → f.length = g.length →
    exec (.dxTranscode f) s = .next t → exec (.dxTranscode g) s = .next u →
    t.fseq = u.fseq ∧
      (∀ c x, t.out = s.out ++ [.err c x] → u.out = s.out ++ [.err c x]) ∧
      ∀ r, t.out = s.out ++ [.samples r] →
        ∃ q, u.out = s.out ++ [.samples q] ∧ q.lanes = r.lanes ∧ q.fseq = r.fseq ∧ q.w = r.w ∧ q.en = r.en ∧ q.bs = r.bs

/-- R220: CP.COLLECT stores the next sample of an enabled channel's lane and touches no other lane and no other state. -/
def Obligations.CollectStoresInItsLane : Prop :=
  ∀ (c : Channel) (slot : Nat) (v : Sample) (s : State) (r : DxRegs), s.dx = some r → r.en.getLsbD c.val = true →
    slot < r.bs → slot = (r.ch[c.val]).length →
    ∃ q, exec (.cpCollect c slot v) s = .next { s with dx := some q } ∧
      q.ch[c.val] = r.ch[c.val] ++ [v] ∧ (∀ d : Channel, d ≠ c → q.ch[d.val] = r.ch[d.val]) ∧
      q.f = r.f ∧ q.w = r.w ∧ q.en = r.en ∧ q.bs = r.bs ∧ q.sb = r.sb

/-- R222, R225, R226: CP.OUT, once the checks pass and every enabled channel's lane holds BS samples, emits the record with
those lanes and the old FSEQ and then advances FSEQ by one; CP.RESTART sets FSEQ to 1 and emits SEQ_RESTART.  (That a disabled
channel has no lane is the model's reading, log entry 11; that the registers stay between operations, log entry 10; that
CP.RESTART runs in every state when asked for alone, log entry 26.) -/
def Obligations.HandOverAndRestart : Prop :=
  (∀ (f : Bytes) (s : State) (r : DxRegs), s.dx = some r → r.f = f → failureOf s.cfg f = none →
      (∀ c : Channel, r.en.getLsbD c.val = true → (r.ch[c.val]).length = r.bs) →
      ∃ rec, exec (.cpOut f) s = .next { s with out := s.out ++ [.samples rec], fseq := s.fseq + 1, dx := none } ∧
        rec.fseq = s.fseq ∧ rec.header = f.take 80 ∧ rec.w = widthOf s.cfg f ∧
        rec.en = BitVec.ofNat 6 (byteAt f 14).toNat ∧ rec.bs = bsOf s.cfg f ∧ rec.stimeRaw = (f.drop 18).take 8 ∧
        rec.intervalMs = s.cfg.intervalLut.lookup (bitOf (byteAt f 13) 7) (bitOf (byteAt f 13) 4) ∧
        ∀ c lane, (c, lane) ∈ rec.lanes ↔ r.en.getLsbD c.val = true ∧ lane = r.ch[c.val]) ∧
    ∀ s : State, exec .cpRestart s = .next { s with fseq := 1, out := s.out ++ [.seqRestart] }

/-- R190: the whole transcode of a frame that passes the checks is the same, event for event, as its check, the collection
of every decoded sample and the hand-over given as single micro-operations.  (Giving them one by one is the model's, log entry
10; so is the result that the check returns, log entry 29.) -/
def Obligations.TranscodeIsItsMicroOps : Prop :=
  ∀ (f : Bytes) (s t : State), failureOf s.cfg f = none → exec (.dxTranscode f) s = .next t →
    runInstrs (transcodeProgram s.cfg f) s = .next { t with ret := .checked none }

/-- R105: the numeric codes of events, warning kinds, classes and causes. -/
def Obligations.CodesAreThoseOfTheTable : Prop :=
  (WarnKind.dropToMarker.code, WarnKind.keepTail.code, WarnKind.flushAll.code) = (1, 2, 3) ∧
    (ErrClass.framingAnomaly.code, ErrClass.invalidHeaderField.code, ErrClass.malformedFrame.code,
        ErrClass.encoderFailure.code, ErrClass.fileSystemError.code) = (1, 2, 3, 4, 5) ∧
    (ErrCause.zeroLength.code, ErrCause.slotOverrun.code, ErrCause.badMarker.code, ErrCause.shortHeader.code,
        ErrCause.shortBody.code) = (1, 2, 3, 1, 2) ∧
    ∀ (k : WarnKind) (n : Nat) (f : Bytes) (r : SampleRecord) (c : ErrClass) (x : ErrCause),
      ((Event.warn k n).code, (Event.frame f).code, (Event.samples r).code, (Event.err c x).code,
        Event.seqRestart.code) = (1, 2, 3, 4, 5)
end

