-- ==== Sys2Proof/Laws/Memory.lean ====
section
/-! SUPPORT. The buffer's laws: its canonical form, that every buffer operation keeps it, and reads after an append or a
removal (spec 20_memory R53 to R55, R72). -/

namespace Sys2Proof.Machine

open Sys2Proof

/-- The addresses of the cells are 0 to `LEN - 1`, rising, whatever the buffer holds. -/
theorem cells_addresses (b : Bytes) : (Memory.cells b).map Prod.fst = List.range b.length := by
  apply List.ext_getElem <;> simp [Memory.cells]

theorem fits_iff (cap : Option Nat) (len n : Nat) :
    Memory.fits cap len n = true ↔ ∀ c, cap = some c → len + n ≤ c := by
  cases cap <;> simp [Memory.fits]

theorem wf_iff (cap : Option Nat) (b : Bytes) :
    Memory.wf cap b = true ↔ ∀ c, cap = some c → b.length ≤ c := by
  simp [Memory.wf, cells_addresses, fits_iff]

theorem wf_nil (cap : Option Nat) : Memory.wf cap [] = true := by simp [wf_iff]

theorem reset_wf : Memory.wf State.reset.cfg.bufCap State.reset.buf = true := wf_nil _

/-- An admitted append keeps the canonical form. -/
theorem append_wf {cap : Option Nat} {b chunk : Bytes} (h : Memory.fits cap b.length chunk.length = true) :
    Memory.wf cap (Memory.append b chunk) = true := by
  simpa [wf_iff, fits_iff, Memory.append] using h

/-- A removal keeps the canonical form. -/
theorem dropFront_wf {cap : Option Nat} {b : Bytes} (k : Nat) (h : Memory.wf cap b = true) :
    Memory.wf cap (Memory.dropFront k b) = true := by
  rw [wf_iff] at *
  intro c hc
  have := h c hc
  simp only [Memory.dropFront, List.length_drop]
  omega

/-- Equal buffers are equal cell lists, and the other way. -/
theorem cells_inj {a b : Bytes} (h : Memory.cells a = Memory.cells b) : a = b := by
  have := congrArg (List.map Prod.snd) h
  simpa [Memory.cells, Function.comp_def] using this

theorem read_append_old (b chunk : Bytes) (i : Nat) (h : i < b.length) :
    Memory.read (Memory.append b chunk) i = Memory.read b i := by
  simp [Memory.read, Memory.append, List.getElem?_append_left h]

theorem read_append_new (b chunk : Bytes) (i : Nat) :
    Memory.read (Memory.append b chunk) (b.length + i) = Memory.read chunk i := by
  simp only [Memory.read, Memory.append]
  rw [List.getElem?_append_right (Nat.le_add_right _ _), Nat.add_sub_cancel_left]

theorem read_dropFront (b : Bytes) (k i : Nat) :
    Memory.read (Memory.dropFront k b) i = Memory.read b (k + i) := by
  simp [Memory.read, Memory.dropFront]

end Sys2Proof.Machine
end

