-- ==== Sys2Proof/Laws/State.lean ====
section
/-! SUPPORT. What each named update does to each field of State, so that no proof unfolds a record update. -/

namespace Sys2Proof.Machine

open Sys2Proof

/-! ### State.emit -/

@[simp] theorem emit_cfg (e : Event) (s : State) : (s.emit e).cfg = s.cfg := rfl
@[simp] theorem emit_buf (e : Event) (s : State) : (s.emit e).buf = s.buf := rfl
@[simp] theorem emit_cached (e : Event) (s : State) : (s.emit e).cached = s.cached := rfl
@[simp] theorem emit_st (e : Event) (s : State) : (s.emit e).st = s.st := rfl
@[simp] theorem emit_fseq (e : Event) (s : State) : (s.emit e).fseq = s.fseq := rfl
@[simp] theorem emit_chunkOpen (e : Event) (s : State) : (s.emit e).chunkOpen = s.chunkOpen := rfl
@[simp] theorem emit_pos (e : Event) (s : State) : (s.emit e).pos = s.pos := rfl
@[simp] theorem emit_dx (e : Event) (s : State) : (s.emit e).dx = s.dx := rfl
@[simp] theorem emit_inp (e : Event) (s : State) : (s.emit e).inp = s.inp := rfl
@[simp] theorem emit_out (e : Event) (s : State) : (s.emit e).out = s.out ++ [e] := rfl
@[simp] theorem emit_ret (e : Event) (s : State) : (s.emit e).ret = s.ret := rfl

/-! ### raise -/

@[simp] theorem raise_cfg (c : ErrCause) (s : State) : (raise c s).cfg = s.cfg := rfl
@[simp] theorem raise_buf (c : ErrCause) (s : State) : (raise c s).buf = s.buf := rfl
@[simp] theorem raise_cached (c : ErrCause) (s : State) : (raise c s).cached = s.cached := rfl
@[simp] theorem raise_st (c : ErrCause) (s : State) : (raise c s).st = s.st := rfl
@[simp] theorem raise_fseq (c : ErrCause) (s : State) : (raise c s).fseq = s.fseq := rfl
@[simp] theorem raise_chunkOpen (c : ErrCause) (s : State) : (raise c s).chunkOpen = s.chunkOpen := rfl
@[simp] theorem raise_pos (c : ErrCause) (s : State) : (raise c s).pos = s.pos := rfl
@[simp] theorem raise_dx (c : ErrCause) (s : State) : (raise c s).dx = none := rfl
@[simp] theorem raise_inp (c : ErrCause) (s : State) : (raise c s).inp = s.inp := rfl
@[simp] theorem raise_out (c : ErrCause) (s : State) : (raise c s).out = s.out ++ [.err c.cls c] := rfl
@[simp] theorem raise_ret (c : ErrCause) (s : State) : (raise c s).ret = s.ret := rfl

/-! ### handOver -/

@[simp] theorem handOver_cfg (h : Header) (r : DxRegs) (s : State) : (handOver h r s).cfg = s.cfg := rfl
@[simp] theorem handOver_buf (h : Header) (r : DxRegs) (s : State) : (handOver h r s).buf = s.buf := rfl
@[simp] theorem handOver_cached (h : Header) (r : DxRegs) (s : State) : (handOver h r s).cached = s.cached := rfl
@[simp] theorem handOver_st (h : Header) (r : DxRegs) (s : State) : (handOver h r s).st = s.st := rfl
@[simp] theorem handOver_fseq (h : Header) (r : DxRegs) (s : State) : (handOver h r s).fseq = s.fseq + 1 := rfl
@[simp] theorem handOver_chunkOpen (h : Header) (r : DxRegs) (s : State) : (handOver h r s).chunkOpen = s.chunkOpen := rfl
@[simp] theorem handOver_pos (h : Header) (r : DxRegs) (s : State) : (handOver h r s).pos = s.pos := rfl
@[simp] theorem handOver_dx (h : Header) (r : DxRegs) (s : State) : (handOver h r s).dx = none := rfl
@[simp] theorem handOver_inp (h : Header) (r : DxRegs) (s : State) : (handOver h r s).inp = s.inp := rfl
@[simp] theorem handOver_out (h : Header) (r : DxRegs) (s : State) : (handOver h r s).out = s.out ++ [.samples (sampleRecord s.cfg h s.fseq (lanesOf r))] := rfl
@[simp] theorem handOver_ret (h : Header) (r : DxRegs) (s : State) : (handOver h r s).ret = s.ret := rfl

/-! ### restartSequence -/

@[simp] theorem restartSequence_cfg (s : State) : (restartSequence s).cfg = s.cfg := rfl
@[simp] theorem restartSequence_buf (s : State) : (restartSequence s).buf = s.buf := rfl
@[simp] theorem restartSequence_cached (s : State) : (restartSequence s).cached = s.cached := rfl
@[simp] theorem restartSequence_st (s : State) : (restartSequence s).st = s.st := rfl
@[simp] theorem restartSequence_fseq (s : State) : (restartSequence s).fseq = 1 := rfl
@[simp] theorem restartSequence_chunkOpen (s : State) : (restartSequence s).chunkOpen = s.chunkOpen := rfl
@[simp] theorem restartSequence_pos (s : State) : (restartSequence s).pos = s.pos := rfl
@[simp] theorem restartSequence_dx (s : State) : (restartSequence s).dx = s.dx := rfl
@[simp] theorem restartSequence_inp (s : State) : (restartSequence s).inp = s.inp := rfl
@[simp] theorem restartSequence_out (s : State) : (restartSequence s).out = s.out ++ [.seqRestart] := rfl
@[simp] theorem restartSequence_ret (s : State) : (restartSequence s).ret = s.ret := rfl

/-! ### clearBlock -/

@[simp] theorem clearBlock_cfg (s : State) : (clearBlock s).cfg = s.cfg := rfl
@[simp] theorem clearBlock_buf (s : State) : (clearBlock s).buf = [] := rfl
@[simp] theorem clearBlock_cached (s : State) : (clearBlock s).cached = none := rfl
@[simp] theorem clearBlock_st (s : State) : (clearBlock s).st = .accumulatingHeader := rfl
@[simp] theorem clearBlock_fseq (s : State) : (clearBlock s).fseq = s.fseq := rfl
@[simp] theorem clearBlock_chunkOpen (s : State) : (clearBlock s).chunkOpen = false := rfl
@[simp] theorem clearBlock_pos (s : State) : (clearBlock s).pos = .idle := rfl
@[simp] theorem clearBlock_dx (s : State) : (clearBlock s).dx = none := rfl
@[simp] theorem clearBlock_inp (s : State) : (clearBlock s).inp = s.inp := rfl
@[simp] theorem clearBlock_out (s : State) : (clearBlock s).out = s.out := rfl
@[simp] theorem clearBlock_ret (s : State) : (clearBlock s).ret = s.ret := rfl

/-! ### appendChunk -/

@[simp] theorem appendChunk_cfg (b : Bytes) (s : State) : (appendChunk b s).cfg = s.cfg := rfl
@[simp] theorem appendChunk_buf (b : Bytes) (s : State) : (appendChunk b s).buf = s.buf ++ b := rfl
@[simp] theorem appendChunk_cached (b : Bytes) (s : State) : (appendChunk b s).cached = s.cached := rfl
@[simp] theorem appendChunk_st (b : Bytes) (s : State) : (appendChunk b s).st = s.st := rfl
@[simp] theorem appendChunk_fseq (b : Bytes) (s : State) : (appendChunk b s).fseq = s.fseq := rfl
@[simp] theorem appendChunk_chunkOpen (b : Bytes) (s : State) : (appendChunk b s).chunkOpen = s.chunkOpen := rfl
@[simp] theorem appendChunk_pos (b : Bytes) (s : State) : (appendChunk b s).pos = .testA := rfl
@[simp] theorem appendChunk_dx (b : Bytes) (s : State) : (appendChunk b s).dx = s.dx := rfl
@[simp] theorem appendChunk_inp (b : Bytes) (s : State) : (appendChunk b s).inp = s.inp := rfl
@[simp] theorem appendChunk_out (b : Bytes) (s : State) : (appendChunk b s).out = s.out := rfl
@[simp] theorem appendChunk_ret (b : Bytes) (s : State) : (appendChunk b s).ret = s.ret := rfl

/-! ### stopLoop -/

@[simp] theorem stopLoop_cfg (s : State) : (stopLoop s).cfg = s.cfg := rfl
@[simp] theorem stopLoop_buf (s : State) : (stopLoop s).buf = s.buf := rfl
@[simp] theorem stopLoop_cached (s : State) : (stopLoop s).cached = s.cached := rfl
@[simp] theorem stopLoop_st (s : State) : (stopLoop s).st = s.st := rfl
@[simp] theorem stopLoop_fseq (s : State) : (stopLoop s).fseq = s.fseq := rfl
@[simp] theorem stopLoop_chunkOpen (s : State) : (stopLoop s).chunkOpen = s.chunkOpen := rfl
@[simp] theorem stopLoop_pos (s : State) : (stopLoop s).pos = .idle := rfl
@[simp] theorem stopLoop_dx (s : State) : (stopLoop s).dx = s.dx := rfl
@[simp] theorem stopLoop_inp (s : State) : (stopLoop s).inp = s.inp := rfl
@[simp] theorem stopLoop_out (s : State) : (stopLoop s).out = s.out := rfl
@[simp] theorem stopLoop_ret (s : State) : (stopLoop s).ret = s.ret := rfl

/-! ### searchMarker -/

@[simp] theorem searchMarker_cfg (s : State) : (searchMarker s).cfg = s.cfg := rfl
@[simp] theorem searchMarker_buf (s : State) : (searchMarker s).buf = s.buf := rfl
@[simp] theorem searchMarker_cached (s : State) : (searchMarker s).cached = s.cached := rfl
@[simp] theorem searchMarker_st (s : State) : (searchMarker s).st = s.st := rfl
@[simp] theorem searchMarker_fseq (s : State) : (searchMarker s).fseq = s.fseq := rfl
@[simp] theorem searchMarker_chunkOpen (s : State) : (searchMarker s).chunkOpen = s.chunkOpen := rfl
@[simp] theorem searchMarker_pos (s : State) : (searchMarker s).pos = .searched := rfl
@[simp] theorem searchMarker_dx (s : State) : (searchMarker s).dx = s.dx := rfl
@[simp] theorem searchMarker_inp (s : State) : (searchMarker s).inp = s.inp := rfl
@[simp] theorem searchMarker_out (s : State) : (searchMarker s).out = s.out := rfl
@[simp] theorem searchMarker_ret (s : State) : (searchMarker s).ret = .search (findMarker s.buf) (if findMarker s.buf = none then some (tailLen s.buf) else none) := rfl

/-! ### syncAtZero -/

@[simp] theorem syncAtZero_cfg (s : State) : (syncAtZero s).cfg = s.cfg := rfl
@[simp] theorem syncAtZero_buf (s : State) : (syncAtZero s).buf = s.buf := rfl
@[simp] theorem syncAtZero_cached (s : State) : (syncAtZero s).cached = s.cached := rfl
@[simp] theorem syncAtZero_st (s : State) : (syncAtZero s).st = s.st := rfl
@[simp] theorem syncAtZero_fseq (s : State) : (syncAtZero s).fseq = s.fseq := rfl
@[simp] theorem syncAtZero_chunkOpen (s : State) : (syncAtZero s).chunkOpen = s.chunkOpen := rfl
@[simp] theorem syncAtZero_pos (s : State) : (syncAtZero s).pos = .stepC := rfl
@[simp] theorem syncAtZero_dx (s : State) : (syncAtZero s).dx = s.dx := rfl
@[simp] theorem syncAtZero_inp (s : State) : (syncAtZero s).inp = s.inp := rfl
@[simp] theorem syncAtZero_out (s : State) : (syncAtZero s).out = s.out := rfl
@[simp] theorem syncAtZero_ret (s : State) : (syncAtZero s).ret = s.ret := rfl

/-! ### dropToMarker -/

@[simp] theorem dropToMarker_cfg (k : Nat) (s : State) : (dropToMarker k s).cfg = s.cfg := rfl
@[simp] theorem dropToMarker_buf (k : Nat) (s : State) : (dropToMarker k s).buf = s.buf.drop k := rfl
@[simp] theorem dropToMarker_cached (k : Nat) (s : State) : (dropToMarker k s).cached = s.cached := rfl
@[simp] theorem dropToMarker_st (k : Nat) (s : State) : (dropToMarker k s).st = s.st := rfl
@[simp] theorem dropToMarker_fseq (k : Nat) (s : State) : (dropToMarker k s).fseq = s.fseq := rfl
@[simp] theorem dropToMarker_chunkOpen (k : Nat) (s : State) : (dropToMarker k s).chunkOpen = s.chunkOpen := rfl
@[simp] theorem dropToMarker_pos (k : Nat) (s : State) : (dropToMarker k s).pos = .testA := rfl
@[simp] theorem dropToMarker_dx (k : Nat) (s : State) : (dropToMarker k s).dx = s.dx := rfl
@[simp] theorem dropToMarker_inp (k : Nat) (s : State) : (dropToMarker k s).inp = s.inp := rfl
@[simp] theorem dropToMarker_out (k : Nat) (s : State) : (dropToMarker k s).out = s.out ++ [.warn .dropToMarker k] := rfl
@[simp] theorem dropToMarker_ret (k : Nat) (s : State) : (dropToMarker k s).ret = s.ret := rfl

/-! ### keepMarkerTail -/

@[simp] theorem keepMarkerTail_cfg (j : Nat) (s : State) : (keepMarkerTail j s).cfg = s.cfg := rfl
@[simp] theorem keepMarkerTail_buf (j : Nat) (s : State) : (keepMarkerTail j s).buf = s.buf.drop (s.buf.length - j) := rfl
@[simp] theorem keepMarkerTail_cached (j : Nat) (s : State) : (keepMarkerTail j s).cached = s.cached := rfl
@[simp] theorem keepMarkerTail_st (j : Nat) (s : State) : (keepMarkerTail j s).st = s.st := rfl
@[simp] theorem keepMarkerTail_fseq (j : Nat) (s : State) : (keepMarkerTail j s).fseq = s.fseq := rfl
@[simp] theorem keepMarkerTail_chunkOpen (j : Nat) (s : State) : (keepMarkerTail j s).chunkOpen = s.chunkOpen := rfl
@[simp] theorem keepMarkerTail_pos (j : Nat) (s : State) : (keepMarkerTail j s).pos = .idle := rfl
@[simp] theorem keepMarkerTail_dx (j : Nat) (s : State) : (keepMarkerTail j s).dx = s.dx := rfl
@[simp] theorem keepMarkerTail_inp (j : Nat) (s : State) : (keepMarkerTail j s).inp = s.inp := rfl
@[simp] theorem keepMarkerTail_out (j : Nat) (s : State) : (keepMarkerTail j s).out = s.out ++ [.warn .keepTail (s.buf.length - j)] := rfl
@[simp] theorem keepMarkerTail_ret (j : Nat) (s : State) : (keepMarkerTail j s).ret = s.ret := rfl

/-! ### flushAll -/

@[simp] theorem flushAll_cfg (s : State) : (flushAll s).cfg = s.cfg := rfl
@[simp] theorem flushAll_buf (s : State) : (flushAll s).buf = [] := by
  simp [flushAll, Memory.dropFront]
@[simp] theorem flushAll_cached (s : State) : (flushAll s).cached = s.cached := rfl
@[simp] theorem flushAll_st (s : State) : (flushAll s).st = s.st := rfl
@[simp] theorem flushAll_fseq (s : State) : (flushAll s).fseq = s.fseq := rfl
@[simp] theorem flushAll_chunkOpen (s : State) : (flushAll s).chunkOpen = s.chunkOpen := rfl
@[simp] theorem flushAll_pos (s : State) : (flushAll s).pos = .testA := rfl
@[simp] theorem flushAll_dx (s : State) : (flushAll s).dx = s.dx := rfl
@[simp] theorem flushAll_inp (s : State) : (flushAll s).inp = s.inp := rfl
@[simp] theorem flushAll_out (s : State) : (flushAll s).out = s.out ++ [.warn .flushAll s.buf.length] := rfl
@[simp] theorem flushAll_ret (s : State) : (flushAll s).ret = s.ret := rfl

/-! ### cacheLen -/

@[simp] theorem cacheLen_cfg (n : Nat) (s : State) : (cacheLen n s).cfg = s.cfg := by
  unfold cacheLen; split <;> rfl
@[simp] theorem cacheLen_buf (n : Nat) (s : State) : (cacheLen n s).buf = s.buf := by
  unfold cacheLen; split <;> rfl
@[simp] theorem cacheLen_fseq (n : Nat) (s : State) : (cacheLen n s).fseq = s.fseq := by
  unfold cacheLen; split <;> rfl
@[simp] theorem cacheLen_chunkOpen (n : Nat) (s : State) : (cacheLen n s).chunkOpen = s.chunkOpen := by
  unfold cacheLen; split <;> rfl
@[simp] theorem cacheLen_pos (n : Nat) (s : State) : (cacheLen n s).pos = .stepD := by
  unfold cacheLen; split <;> rfl
@[simp] theorem cacheLen_dx (n : Nat) (s : State) : (cacheLen n s).dx = s.dx := by
  unfold cacheLen; split <;> rfl
@[simp] theorem cacheLen_inp (n : Nat) (s : State) : (cacheLen n s).inp = s.inp := by
  unfold cacheLen; split <;> rfl
@[simp] theorem cacheLen_out (n : Nat) (s : State) : (cacheLen n s).out = s.out := by
  unfold cacheLen; split <;> rfl
@[simp] theorem cacheLen_ret (n : Nat) (s : State) : (cacheLen n s).ret = s.ret := by
  unfold cacheLen; split <;> rfl

theorem cacheLen_of_none (n : Nat) (s : State) (h : s.cached = none) :
    cacheLen n s = { s with cached := some n, st := .accumulatingBody, pos := .stepD } := by
  simp [cacheLen, h]

theorem cacheLen_of_some (n l : Nat) (s : State) (h : s.cached = some l) :
    cacheLen n s = { s with pos := .stepD } := by
  simp [cacheLen, h]

theorem cacheLen_cached (n : Nat) (s : State) : (cacheLen n s).cached = some (s.cached.getD n) := by
  unfold cacheLen; split <;> simp_all

/-! ### transcode -/

/-- All that a transcode can do: raise the first failing check's error, or hand over the complete record. -/
theorem transcode_cases (f : Bytes) (s : State) :
    (∃ c, checkFrame s.cfg f = .error c ∧ transcode f s = raise c s) ∨
      ∃ h, checkFrame s.cfg f = .ok h ∧
        transcode f s = handOver h (demuxFrame s.cfg (startRegs s.cfg f h)) s := by
  unfold transcode
  cases h : checkFrame s.cfg f with
  | error c => exact .inl ⟨c, rfl, rfl⟩
  | ok x => exact .inr ⟨x, rfl, rfl⟩

@[simp] theorem transcode_cfg (b : Bytes) (s : State) : (transcode b s).cfg = s.cfg := by
  rcases transcode_cases b s with ⟨_, _, h⟩ | ⟨_, _, h⟩ <;> simp [h]
@[simp] theorem transcode_buf (b : Bytes) (s : State) : (transcode b s).buf = s.buf := by
  rcases transcode_cases b s with ⟨_, _, h⟩ | ⟨_, _, h⟩ <;> simp [h]
@[simp] theorem transcode_cached (b : Bytes) (s : State) : (transcode b s).cached = s.cached := by
  rcases transcode_cases b s with ⟨_, _, h⟩ | ⟨_, _, h⟩ <;> simp [h]
@[simp] theorem transcode_st (b : Bytes) (s : State) : (transcode b s).st = s.st := by
  rcases transcode_cases b s with ⟨_, _, h⟩ | ⟨_, _, h⟩ <;> simp [h]
@[simp] theorem transcode_chunkOpen (b : Bytes) (s : State) : (transcode b s).chunkOpen = s.chunkOpen := by
  rcases transcode_cases b s with ⟨_, _, h⟩ | ⟨_, _, h⟩ <;> simp [h]
@[simp] theorem transcode_pos (b : Bytes) (s : State) : (transcode b s).pos = s.pos := by
  rcases transcode_cases b s with ⟨_, _, h⟩ | ⟨_, _, h⟩ <;> simp [h]
@[simp] theorem transcode_inp (b : Bytes) (s : State) : (transcode b s).inp = s.inp := by
  rcases transcode_cases b s with ⟨_, _, h⟩ | ⟨_, _, h⟩ <;> simp [h]
@[simp] theorem transcode_ret (b : Bytes) (s : State) : (transcode b s).ret = s.ret := by
  rcases transcode_cases b s with ⟨_, _, h⟩ | ⟨_, _, h⟩ <;> simp [h]
@[simp] theorem transcode_dx (b : Bytes) (s : State) : (transcode b s).dx = none := by
  rcases transcode_cases b s with ⟨_, _, h⟩ | ⟨_, _, h⟩ <;> simp [h]

/-! ### emitFrame -/

@[simp] theorem emitFrame_cfg (l : Nat) (s : State) : (emitFrame l s).cfg = s.cfg := by
  simp [emitFrame, Memory.dropFront]
@[simp] theorem emitFrame_buf (l : Nat) (s : State) : (emitFrame l s).buf = s.buf.drop l := by
  simp [emitFrame, Memory.dropFront]
@[simp] theorem emitFrame_cached (l : Nat) (s : State) : (emitFrame l s).cached = none := by
  simp [emitFrame, Memory.dropFront]
@[simp] theorem emitFrame_st (l : Nat) (s : State) : (emitFrame l s).st = .accumulatingHeader := by
  simp [emitFrame, Memory.dropFront]
@[simp] theorem emitFrame_chunkOpen (l : Nat) (s : State) : (emitFrame l s).chunkOpen = s.chunkOpen := by
  simp [emitFrame, Memory.dropFront]
@[simp] theorem emitFrame_pos (l : Nat) (s : State) : (emitFrame l s).pos = .testA := by
  simp [emitFrame, Memory.dropFront]
@[simp] theorem emitFrame_dx (l : Nat) (s : State) : (emitFrame l s).dx = none := by
  simp [emitFrame, Memory.dropFront]
@[simp] theorem emitFrame_inp (l : Nat) (s : State) : (emitFrame l s).inp = s.inp := by
  simp [emitFrame, Memory.dropFront]
@[simp] theorem emitFrame_ret (l : Nat) (s : State) : (emitFrame l s).ret = s.ret := by
  simp [emitFrame, Memory.dropFront]

end Sys2Proof.Machine
end

