-- ==== Sys2Proof/Laws/Ops.lean ====
section
/-! SUPPORT. One lemma for each shared operation that says all it can do; proofs cite these and do not unfold. -/

namespace Sys2Proof.Machine

open Sys2Proof

/-! ### Header views -/

theorem headerOf_of_le {f : Bytes} (h : 80 ≤ f.length) :
    headerOf f = some { raw := f.take 80, size := by simp [h] } := by
  simp [headerOf, h]

theorem headerOf_eq_none {f : Bytes} : headerOf f = none ↔ f.length < 80 := by
  unfold headerOf; split <;> simp_all

theorem headerOf_eq_some {f : Bytes} {h : Header} :
    headerOf f = some h ↔ 80 ≤ f.length ∧ h.raw = f.take 80 := by
  unfold headerOf
  split <;> rename_i hl
  · cases h; simp [hl, eq_comm]
  · simp [hl]

/-- A header accessor answers the field of the view's header, or faults on fewer than 80 bytes; it does nothing else. -/
theorem withHeader_cases (v : View) (s : State) (field : Header → Ret) :
    (∃ h, viewHeader v s = some h ∧ withHeader v s field = .next { s with ret := field h }) ∨
      ((viewBytes v s).length < 80 ∧ withHeader v s field = .fault .headerOutOfBounds) := by
  unfold withHeader
  cases h : viewHeader v s with
  | some x => exact .inl ⟨x, rfl, rfl⟩
  | none => exact .inr ⟨headerOf_eq_none.mp h, rfl⟩

/-! ### The marker search -/

theorem findMarker_nil : findMarker [] = none := rfl

theorem findMarker_cons (x : Byte) (rest : Bytes) :
    findMarker (x :: rest) =
      if marker.isPrefixOf (x :: rest) then some 0 else (findMarker rest).map (· + 1) := rfl

theorem isPrefixOf_marker (b : Bytes) : marker.isPrefixOf b = true ↔ b.take 12 = marker := by
  rw [List.isPrefixOf_iff_prefix, List.prefix_iff_eq_take, show marker.length = 12 from rfl, eq_comm]

theorem findMarker_eq_zero (b : Bytes) : findMarker b = some 0 ↔ b.take 12 = marker := by
  cases b with
  | nil => simp [findMarker, marker]
  | cons x rest =>
    rw [findMarker_cons, ← isPrefixOf_marker]
    split <;> simp_all

theorem tailUpTo_le (m : Nat) (b : Bytes) : tailUpTo m b ≤ m := by
  induction m with
  | zero => simp [tailUpTo]
  | succ j ih => unfold tailUpTo; split <;> omega

/-! ### Selection and the loop -/

theorem runSelected_next {p : LoopPos} {i : Instr} {s t : State} :
    runSelected p i s = .next t ↔ ∃ m, selectAt p s = some m ∧ m.instr = i ∧ t = m.apply s := by
  unfold runSelected
  cases selectAt p s with
  | none => simp
  | some m =>
    by_cases h : m.instr = i
    · simp [h, eq_comm]
    · simp only [h, if_false, Option.some.injEq, reduceCtorEq, false_iff]
      rintro ⟨_, rfl, hi, -⟩
      exact h hi

theorem runSelected_not_fault (p : LoopPos) (i : Instr) (s : State) (f : Fault) :
    runSelected p i s ≠ .fault f := by
  unfold runSelected
  cases selectAt p s with
  | none => simp
  | some m => by_cases h : m.instr = i <;> simp [h]

theorem progress_zero (s : State) : progress 0 s = s := rfl

theorem progress_of_select {s : State} {m : FsOp} (n : Nat) (h : select s = some m) :
    progress (n + 1) s = progress n (m.apply s) := by
  simp [progress, h]

theorem progress_of_rest {s : State} (n : Nat) (h : select s = none) : progress n s = s := by
  cases n <;> simp [progress, h]

/-- Whatever every selected micro-operation keeps, the loop keeps. -/
theorem progress_keeps {P : State → Prop}
    (hP : ∀ s m, P s → select s = some m → P (m.apply s)) (n : Nat) (s : State) (h : P s) :
    P (progress n s) := by
  induction n generalizing s with
  | zero => exact h
  | succ n ih =>
    cases hs : select s with
    | none => rwa [progress_of_rest _ hs]
    | some m => rw [progress_of_select _ hs]; exact ih _ (hP s m h hs)

/-! ### Fetching and stepping -/

theorem fetch_of_select {s : State} {m : FsOp} (h : select s = some m) : fetch s = some (m.instr, s) := by
  simp [fetch, h]

theorem fetch_of_request {s : State} {r : Request} {rest : List Request} (h : select s = none)
    (hi : s.inp = r :: rest) : fetch s = some (r.instr, { s with inp := rest }) := by
  simp [fetch, h, hi]

theorem fetch_of_rest {s : State} (h : select s = none) (hi : s.inp = []) : fetch s = none := by
  simp [fetch, h, hi]

theorem instr_wellFormed (m : FsOp) : m.instr.wellFormed = true := by cases m <;> rfl

theorem decodeCmd_wellFormed (w : CmdWord) : (decodeCmd w).wellFormed = true := by
  unfold decodeCmd
  repeat' split
  all_goals rfl

/-- A run of the machine goes on from the next state. -/
theorem core_run_of_next {s t : State} (n : Nat) (h : step s = .next t) : core.run (n + 1) s = core.run n t := by
  have e := Host.Core.run.eq_2 core s n
  have h' : core.step s = .next t := h
  rw [h'] at e
  exact e

theorem runChecked_of_wellFormed {i : Instr} (s : State) (h : i.wellFormed = true) : runChecked i s = exec i s := by
  simp [runChecked, h]

end Sys2Proof.Machine
end

