-- ==== Sys2Proof/Laws/PerInstr.lean ====
section
/-! SUPPORT. Statements about every instruction as syntax, one lemma per constructor. -/

namespace Sys2Proof.Laws

/-- The bytes that select a header accessor lie inside the 80-byte header (spec 30_encoding R82, 40_header_parser R134). -/
def HeaderField.Statement (i : Sys2Proof.Instr) : Prop :=
  ∀ off width, Sys2Proof.hdrField i = some (off, width) → 0 < width ∧ off + width ≤ 80

theorem HeaderField.nop : HeaderField.Statement Sys2Proof.Instr.nop := nofun

theorem HeaderField.pushb (a : Sys2Proof.Byte) : HeaderField.Statement (Sys2Proof.Instr.pushb a) := nofun

theorem HeaderField.pushbL (a : Sys2Proof.Byte) : HeaderField.Statement (Sys2Proof.Instr.pushbL a) := nofun

theorem HeaderField.reset : HeaderField.Statement Sys2Proof.Instr.reset := nofun

theorem HeaderField.rsvd : HeaderField.Statement Sys2Proof.Instr.rsvd := nofun

theorem HeaderField.push (a : Sys2Proof.Bytes) : HeaderField.Statement (Sys2Proof.Instr.push a) := nofun

theorem HeaderField.fsAppend (a : Sys2Proof.Bytes) : HeaderField.Statement (Sys2Proof.Instr.fsAppend a) := nofun

theorem HeaderField.fsWaithdr : HeaderField.Statement Sys2Proof.Instr.fsWaithdr := nofun

theorem HeaderField.fsSearch : HeaderField.Statement Sys2Proof.Instr.fsSearch := nofun

theorem HeaderField.fsSync0 : HeaderField.Statement Sys2Proof.Instr.fsSync0 := nofun

theorem HeaderField.fsDropk : HeaderField.Statement Sys2Proof.Instr.fsDropk := nofun

theorem HeaderField.fsKeeptail : HeaderField.Statement Sys2Proof.Instr.fsKeeptail := nofun

theorem HeaderField.fsFlush : HeaderField.Statement Sys2Proof.Instr.fsFlush := nofun

theorem HeaderField.fsLen : HeaderField.Statement Sys2Proof.Instr.fsLen := nofun

theorem HeaderField.fsWaitbody : HeaderField.Statement Sys2Proof.Instr.fsWaitbody := nofun

theorem HeaderField.fsEmit : HeaderField.Statement Sys2Proof.Instr.fsEmit := nofun

theorem HeaderField.hpMarker (a : Sys2Proof.View) : HeaderField.Statement (Sys2Proof.Instr.hpMarker a) := by
  intro off width h
  simp only [Sys2Proof.hdrField, Option.some.injEq, Prod.mk.injEq] at h
  omega

theorem HeaderField.hpHdrsize (a : Sys2Proof.View) : HeaderField.Statement (Sys2Proof.Instr.hpHdrsize a) := by
  intro off width h
  simp only [Sys2Proof.hdrField, Option.some.injEq, Prod.mk.injEq] at h
  omega

theorem HeaderField.hpWidth (a : Sys2Proof.View) : HeaderField.Statement (Sys2Proof.Instr.hpWidth a) := by
  intro off width h
  simp only [Sys2Proof.hdrField, Option.some.injEq, Prod.mk.injEq] at h
  omega

theorem HeaderField.hpIntoff (a : Sys2Proof.View) : HeaderField.Statement (Sys2Proof.Instr.hpIntoff a) := by
  intro off width h
  simp only [Sys2Proof.hdrField, Option.some.injEq, Prod.mk.injEq] at h
  omega

theorem HeaderField.hpLowpwr (a : Sys2Proof.View) : HeaderField.Statement (Sys2Proof.Instr.hpLowpwr a) := by
  intro off width h
  simp only [Sys2Proof.hdrField, Option.some.injEq, Prod.mk.injEq] at h
  omega

theorem HeaderField.hpLowrate (a : Sys2Proof.View) : HeaderField.Statement (Sys2Proof.Instr.hpLowrate a) := by
  intro off width h
  simp only [Sys2Proof.hdrField, Option.some.injEq, Prod.mk.injEq] at h
  omega

theorem HeaderField.hpCfg (a : Sys2Proof.View) : HeaderField.Statement (Sys2Proof.Instr.hpCfg a) := by
  intro off width h
  simp only [Sys2Proof.hdrField, Option.some.injEq, Prod.mk.injEq] at h
  omega

theorem HeaderField.hpChen (a : Sys2Proof.View) (b : Sys2Proof.Channel) : HeaderField.Statement (Sys2Proof.Instr.hpChen a b) := by
  intro off width h
  simp only [Sys2Proof.hdrField, Option.some.injEq, Prod.mk.injEq] at h
  omega

theorem HeaderField.hpChmap (a : Sys2Proof.View) : HeaderField.Statement (Sys2Proof.Instr.hpChmap a) := by
  intro off width h
  simp only [Sys2Proof.hdrField, Option.some.injEq, Prod.mk.injEq] at h
  omega

theorem HeaderField.hpBsamples (a : Sys2Proof.View) : HeaderField.Statement (Sys2Proof.Instr.hpBsamples a) := by
  intro off width h
  simp only [Sys2Proof.hdrField, Option.some.injEq, Prod.mk.injEq] at h
  omega

theorem HeaderField.hpSbytes (a : Sys2Proof.View) : HeaderField.Statement (Sys2Proof.Instr.hpSbytes a) := by
  intro off width h
  simp only [Sys2Proof.hdrField, Option.some.injEq, Prod.mk.injEq] at h
  omega

theorem HeaderField.hpFlen (a : Sys2Proof.View) : HeaderField.Statement (Sys2Proof.Instr.hpFlen a) := by
  intro off width h
  simp only [Sys2Proof.hdrField, Option.some.injEq, Prod.mk.injEq] at h
  omega

theorem HeaderField.hpStime (a : Sys2Proof.View) : HeaderField.Statement (Sys2Proof.Instr.hpStime a) := by
  intro off width h
  simp only [Sys2Proof.hdrField, Option.some.injEq, Prod.mk.injEq] at h
  omega

theorem HeaderField.hpMisc (a : Sys2Proof.View) : HeaderField.Statement (Sys2Proof.Instr.hpMisc a) := by
  intro off width h
  simp only [Sys2Proof.hdrField, Option.some.injEq, Prod.mk.injEq] at h
  omega

theorem HeaderField.hpBatt (a : Sys2Proof.RawSource) : HeaderField.Statement (Sys2Proof.Instr.hpBatt a) := by
  intro off width h
  simp only [Sys2Proof.hdrField, Option.some.injEq, Prod.mk.injEq] at h
  omega

theorem HeaderField.hpTemp (a : Sys2Proof.RawSource) : HeaderField.Statement (Sys2Proof.Instr.hpTemp a) := by
  intro off width h
  simp only [Sys2Proof.hdrField, Option.some.injEq, Prod.mk.injEq] at h
  omega

theorem HeaderField.hpRevboard (a : Sys2Proof.View) : HeaderField.Statement (Sys2Proof.Instr.hpRevboard a) := by
  intro off width h
  simp only [Sys2Proof.hdrField, Option.some.injEq, Prod.mk.injEq] at h
  omega

theorem HeaderField.hpGps (a : Sys2Proof.View) : HeaderField.Statement (Sys2Proof.Instr.hpGps a) := by
  intro off width h
  simp only [Sys2Proof.hdrField, Option.some.injEq, Prod.mk.injEq] at h
  omega

theorem HeaderField.hpGpsfix (a : Sys2Proof.View) : HeaderField.Statement (Sys2Proof.Instr.hpGpsfix a) := by
  intro off width h
  simp only [Sys2Proof.hdrField, Option.some.injEq, Prod.mk.injEq] at h
  omega

theorem HeaderField.hpGpsage (a : Sys2Proof.AgeSource) : HeaderField.Statement (Sys2Proof.Instr.hpGpsage a) := by
  intro off width h
  simp only [Sys2Proof.hdrField, Option.some.injEq, Prod.mk.injEq] at h
  omega

theorem HeaderField.hpPosdisc (a : Sys2Proof.View) : HeaderField.Statement (Sys2Proof.Instr.hpPosdisc a) := by
  intro off width h
  simp only [Sys2Proof.hdrField, Option.some.injEq, Prod.mk.injEq] at h
  omega

theorem HeaderField.hpPosstr (a : Sys2Proof.View) : HeaderField.Statement (Sys2Proof.Instr.hpPosstr a) := by
  intro off width h
  simp only [Sys2Proof.hdrField, Option.some.injEq, Prod.mk.injEq] at h
  omega

theorem HeaderField.hpTail (a : Sys2Proof.View) : HeaderField.Statement (Sys2Proof.Instr.hpTail a) := by
  intro off width h
  simp only [Sys2Proof.hdrField, Option.some.injEq, Prod.mk.injEq] at h
  omega

theorem HeaderField.hpInterval (a : Sys2Proof.View) : HeaderField.Statement (Sys2Proof.Instr.hpInterval a) := by
  intro off width h
  simp only [Sys2Proof.hdrField, Option.some.injEq, Prod.mk.injEq] at h
  omega

theorem HeaderField.dxTranscode (a : Sys2Proof.Bytes) : HeaderField.Statement (Sys2Proof.Instr.dxTranscode a) := nofun

theorem HeaderField.dxCheck (a : Sys2Proof.Bytes) : HeaderField.Statement (Sys2Proof.Instr.dxCheck a) := nofun

theorem HeaderField.dxOffset (a : BitVec 6) (b : Sys2Proof.Width) (c : Sys2Proof.Channel) : HeaderField.Statement (Sys2Proof.Instr.dxOffset a b c) := nofun

theorem HeaderField.dxAddr (a : Nat) (b : Nat) (c : Nat) : HeaderField.Statement (Sys2Proof.Instr.dxAddr a b c) := nofun

theorem HeaderField.dxLoad3 (a : Sys2Proof.Bytes) (b : Nat) : HeaderField.Statement (Sys2Proof.Instr.dxLoad3 a b) := nofun

theorem HeaderField.dxSext24 (a : BitVec 24) : HeaderField.Statement (Sys2Proof.Instr.dxSext24 a) := nofun

theorem HeaderField.dxLoad4 (a : Sys2Proof.Bytes) (b : Nat) : HeaderField.Statement (Sys2Proof.Instr.dxLoad4 a b) := nofun

theorem HeaderField.cpCollect (a : Sys2Proof.Channel) (b : Nat) (c : Sys2Proof.Sample) : HeaderField.Statement (Sys2Proof.Instr.cpCollect a b c) := nofun

theorem HeaderField.cpOut (a : Sys2Proof.Bytes) : HeaderField.Statement (Sys2Proof.Instr.cpOut a) := nofun

theorem HeaderField.cpRestart : HeaderField.Statement Sys2Proof.Instr.cpRestart := nofun

end Sys2Proof.Laws
end

