-- ==== Sys2Proof/Tests/Slice0.lean ====
section
/-! SUPPORT. The model's own tests.  Expected results are those of spec/95_test_vectors.md and of the examples in the rules,
named in each comment; then one witness for the hypotheses of each statement. -/

namespace Sys2Proof.Tests

open Sys2Proof Sys2Proof.Machine

-- one thread for all theorems of the file: each `decide` of its own thread would need a stack of its own
set_option Elab.async false

/-! ### Byte strings of 95_test_vectors section 0 -/

/-- `hdr(cfg, map, bs_lo, bs_hi, sb)`. -/
def hdr (cfg map lo hi sb : Byte) : Bytes :=
  [0x53, 0x65, 0x69, 0x73, 0x6D, 0x69, 0x63, 0x44, 0x61, 0x74, 0x61, 0x00, 0x50, cfg, map, lo, hi, sb] ++
    List.replicate 62 0

/-- `g^k`. -/
def garbage (k : Nat) : Bytes := List.replicate k 0xAA

def frameA : Bytes := hdr 0x00 0x01 0x01 0x00 0x03 ++ [0x12, 0x34, 0x56]
def header0 : Bytes := hdr 0x00 0x25 0x04 0x00 0x09
def frameD : Bytes := header0 ++ (List.range 36).map fun i => BitVec.ofNat 8 (0x10 + i)
def frame4 : Bytes :=
  hdr 0x80 0x03 0x02 0x00 0x08 ++
    [0x78, 0x56, 0x34, 0x12, 0xFF, 0xFF, 0xFF, 0xFF, 0x00, 0x00, 0x00, 0x80, 0xFF, 0xFF, 0xFF, 0x7F]
def frameZ : Bytes := hdr 0x00 0x01 0x00 0x00 0x03
def frameO : Bytes := hdr 0x00 0x03 0x01 0x00 0x03 ++ [0, 0, 0]
def frameP : Bytes :=
  hdr 0x00 0x01 0x02 0x00 0x05 ++ [0x01, 0x02, 0x03, 0xEE, 0xEE, 0xFF, 0xFF, 0xFE, 0xEE, 0xEE]
def frameN : Bytes := hdr 0x00 0x00 0x02 0x00 0x03 ++ List.replicate 6 0

/-- The default parameters of 95_test_vectors, with an interval table of this test's own: 1/1, 2/1, 3/1, 4/1 ms. -/
def cfg0 : Config :=
  { nativeOrder := .little
    wOfBit7 := { zero := .three, one := .four }
    bufCap := none
    intervalLut := { w0r0 := ⟨0, 0⟩, w0r1 := ⟨1, 0⟩, w1r0 := ⟨2, 0⟩, w1r1 := ⟨3, 0⟩ }
    sink := default }

/-- The reset state of an instance with these parameters. -/
def s0 : State := { State.reset with cfg := cfg0 }

/-- The reset state with a given buffer, and optionally a cached length. -/
def withBuf (b : Bytes) (l : Option Nat := none) : State :=
  { s0 with buf := b, cached := l, st := if l = none then .accumulatingHeader else .accumulatingBody }

/-- What a test looks at: a field of the next state. -/
def nextOf {α : Type} (f : State → α) (o : Host.Outcome State Fault Refusal) : Option α :=
  match o with
  | .next t => some (f t)
  | .fault _ => none
  | .refused _ => none

/-- The state written in 95_test_vectors as (LEN, LV and L, FSEQ). -/
def shape (t : State) : Nat × Option Nat × Nat := (t.buf.length, t.cached, t.fseq)

/-- An event without the fields the tests do not look at. -/
inductive Seen where
  | warn (k : WarnKind) (n : Nat)
  | frame (b : Bytes)
  | samples (fseq : Nat) (w : Width) (en : BitVec 6) (bs : Nat) (lanes : List (Channel × List Sample))
  | err (c : ErrClass) (x : ErrCause)
  | restart
deriving DecidableEq, Repr

def seen (e : Event) : Seen :=
  match e with
  | .warn k n => .warn k n
  | .frame b => .frame b
  | .samples r => .samples r.fseq r.w r.en r.bs r.lanes
  | .err c x => .err c x
  | .seqRestart => .restart

def events (t : State) : List Seen := t.out.map seen

/-- Did the outcome refuse with this reason? -/
def refusedWith (r : Refusal) (o : Host.Outcome State Fault Refusal) : Bool :=
  match o with
  | .refused q => decide (q = r)
  | .next _ => false
  | .fault _ => false

/-- Did the outcome fault with this reason? -/
def faultedWith (r : Fault) (o : Host.Outcome State Fault Refusal) : Bool :=
  match o with
  | .fault q => decide (q = r)
  | .next _ => false
  | .refused _ => false

/-! ### Well-formedness: each check refuses an ill-formed term -/

theorem test_illformed_short_view : (Instr.hpMarker (.bytes (List.replicate 79 0))).wellFormed = false := by decide
theorem test_illformed_raw_source : (Instr.hpBatt (.header (.bytes []))).wellFormed = false := by decide
theorem test_illformed_age_source : (Instr.hpGpsage (.header (.bytes []))).wellFormed = false := by decide
theorem test_illformed_load3 : (Instr.dxLoad3 [1, 2, 3] 1).wellFormed = false := by decide
theorem test_illformed_load4 : (Instr.dxLoad4 [1, 2, 3] 0).wellFormed = false := by decide

theorem test_illformed_is_refused :
    refusedWith .illFormed (step { s0 with inp := [.op (.dxLoad4 [1, 2, 3] 0)] }) = true := by decide

/-! ### Decoding: words written from R101 and V-CO-01, selections written from R100 -/

theorem test_decode_nop : decodeCmd 0b00110100101#11 = .nop := by decide
theorem test_decode_pushb : decodeCmd 0b01001010011#11 = .pushb 0x53 := by decide
theorem test_decode_pushbL : decodeCmd 0b01101010110#11 = .pushbL 0x56 := by decide
theorem test_decode_reset : decodeCmd 0b10111111111#11 = .reset := by decide
theorem test_decode_rsvd : decodeCmd 0b11000000000#11 = .rsvd := by decide
theorem test_decode_too_wide : (decode 0x800).toOption = none := by decide
theorem test_decode_push : (encode (.push [0x53, 0x65])).map decodeWords = some [.pushb 0x53, .pushbL 0x65] := by decide
theorem test_encode_push : encode (.push [0x53, 0x65]) = some [0x253#11, 0x365#11] := by decide
theorem test_table_word_pushb : decodeTableWord 16 0x200 = some (.pushb 0) := by decide
theorem test_table_word_marker : (decodeTableWord 96 0x536569736D69634461746100).isSome = true := by decide
theorem test_micro_has_no_word : encode .fsDropk = none := by decide

/-- R100, column "selected by": the header offsets of the accessors. -/
theorem test_hdr_fields :
    [Instr.hpMarker .buf, .hpHdrsize .buf, .hpWidth .buf, .hpChen .buf 5, .hpBsamples .buf, .hpSbytes .buf, .hpFlen .buf,
      .hpStime .buf, .hpMisc .buf, .hpGps .buf, .hpPosdisc .buf, .hpPosstr .buf, .hpTail .buf].map hdrField =
    [some (0, 12), some (12, 1), some (13, 1), some (14, 1), some (15, 2), some (17, 1), some (15, 3), some (18, 8),
      some (26, 7), some (33, 20), some (53, 1), some (54, 23), some (77, 3)] := by decide

/-- R100, column "selected by": LEN = 79 waits, LEN = 80 searches; a marker at 0, at 5, a tail, nothing. -/
theorem test_selection :
    [selectAt .testA (withBuf (garbage 79)), selectAt .testA (withBuf (garbage 80)),
      selectAt .searched (withBuf (frameA.take 80)), selectAt .searched (withBuf (garbage 5 ++ frameA.take 80)),
      selectAt .searched (withBuf (garbage 78 ++ [0x53, 0x65])), selectAt .searched (withBuf (garbage 80)),
      selectAt .stepC (withBuf frameA), selectAt .stepD (withBuf (frameA.take 82) (some 83)),
      selectAt .stepD (withBuf frameA (some 83))] =
    [some .waitHdr, some .search, some .sync0, some (.dropK 5), some (.keepTail 2), some .flush, some (.len 83),
      some .waitBody, some (.emit 83)] := by decide +kernel

/-! ### The command port (44_control_ops, V-CO) -/

/-- V-CO-02. -/
theorem test_nop : nextOf (fun t => (t.buf, t.chunkOpen, t.out.length)) (exec .nop { s0 with chunkOpen := true }) =
    some ([], true, 0) := by decide

/-- V-CO-02. -/
theorem test_pushb : nextOf (fun t => (t.buf, t.chunkOpen, t.out.length)) (exec (.pushb 0x53) s0) =
    some ([0x53], true, 0) := by decide

/-- R241: refused when LEN = BUF_CAP. -/
theorem test_pushb_full :
    refusedWith .bufferFull (exec (.pushb 0x53) { s0 with cfg := { cfg0 with bufCap := some 0 } }) = true := by decide

/-- V-CO-02. -/
theorem test_pushbL :
    nextOf (fun t => (t.buf, t.chunkOpen, t.pos, t.out.length)) (exec (.pushbL 0x65) { s0 with buf := [0x53], chunkOpen := true }) =
    some ([0x53, 0x65], false, .idle, 0) := by decide

/-- R242: the last beat of `Fa` emits the frame and its record. -/
theorem test_pushbL_frame :
    nextOf (fun t => (events t, shape t)) (exec (.pushbL 0x56) { withBuf (frameA.take 82) with chunkOpen := true }) =
    some ([.frame frameA, .samples 1 .three 0x01#6 1 [(0, [0x123456#32])]], (0, none, 2)) := by decide +kernel

/-- R243 and P4: RESET inside a frame. -/
theorem test_reset :
    nextOf (fun t => (events t, shape t, t.st, t.chunkOpen))
      (exec .reset { withBuf (frameA.take 81) (some 83) with fseq := 7, chunkOpen := true }) =
    some ([.restart], (0, none, 1), .accumulatingHeader, false) := by decide +kernel

/-- V-CO-06. -/
theorem test_rsvd : refusedWith .reservedCommand (step (s0.withFetchWord 16 0x600)) = true := by decide

/-- The first step after power-on reset runs a placed word. -/
theorem test_step_first_word :
    nextOf (fun t => (t.buf, t.chunkOpen)) (step (State.reset.withFetchWord 16 0x253)) = some ([0x53], true) := by decide

/-! ### The frame synchronizer (41_frame_sync, V-FS) -/

/-- R150: `PUSH Fa` from reset. -/
theorem test_push_frame : nextOf (fun t => (events t, shape t, t.ret)) (exec (.push frameA) s0) =
    some ([.frame frameA, .samples 1 .three 0x01#6 1 [(0, [0x123456#32])]], (0, none, 2), .consumed 83) := by
  decide +kernel

/-- V-FS-11, the first form: garbage between frames. -/
theorem test_push_garbage_between :
    nextOf (fun t => (events t, shape t)) (exec (.push (frameA ++ garbage 7 ++ frameA)) s0) =
    some ([.frame frameA, .samples 1 .three 0x01#6 1 [(0, [0x123456#32])], .warn .dropToMarker 7, .frame frameA,
      .samples 2 .three 0x01#6 1 [(0, [0x123456#32])]], (0, none, 3)) := by decide +kernel

/-- R152. -/
theorem test_fsAppend : nextOf (fun t => (t.buf, t.pos)) (exec (.fsAppend [0x69, 0x73]) (withBuf [0x53, 0x65])) =
    some ([0x53, 0x65, 0x69, 0x73], .testA) := by decide

/-- R153. -/
theorem test_fsWaithdr : nextOf (fun t => (t.buf.length, t.out.length, t.pos)) (exec .fsWaithdr (withBuf (garbage 79))) =
    some (79, 0, .idle) := by decide

theorem test_fsWaithdr_not_selected : refusedWith .notSelected (exec .fsWaithdr (withBuf (garbage 80))) = true := by decide

/-- R154: `g^5 ++ Fa[0..80)` gives k = 5. -/
theorem test_fsSearch : nextOf State.ret (exec .fsSearch (withBuf (garbage 5 ++ frameA.take 80))) =
    some (.search (some 5) none) := by decide +kernel

/-- R157: `g^78 ++ 53 65` gives j = 2. -/
theorem test_fsSearch_tail : nextOf State.ret (exec .fsSearch (withBuf (garbage 78 ++ [0x53, 0x65]))) =
    some (.search none (some 2)) := by decide +kernel

theorem test_fsSync0 : nextOf State.pos (exec .fsSync0 (withBuf (frameA.take 80))) = some .stepC := by decide +kernel

/-- R156 and V-FS-09. -/
theorem test_fsDropk : nextOf (fun t => (t.buf, events t)) (exec .fsDropk (withBuf (garbage 68 ++ marker))) =
    some (marker, [.warn .dropToMarker 68]) := by decide +kernel

/-- V-FS-05: the smallest KEEP_TAIL count. -/
theorem test_fsKeeptail :
    nextOf (fun t => (t.buf, events t, t.pos)) (exec .fsKeeptail (withBuf (garbage 69 ++ marker.take 11))) =
    some (marker.take 11, [.warn .keepTail 69], .idle) := by decide +kernel

/-- V-FS-05: a lone `65` is not a marker prefix. -/
theorem test_fsFlush : nextOf (fun t => (t.buf, events t)) (exec .fsFlush (withBuf (garbage 79 ++ [0x65]))) =
    some ([], [.warn .flushAll 80]) := by decide +kernel

/-- V-FS-01. -/
theorem test_fsLen : nextOf (fun t => (t.cached, t.st)) (exec .fsLen (withBuf (frameA.take 80))) =
    some (some 83, .accumulatingBody) := by decide +kernel

/-- V-FS-14: the largest length. -/
theorem test_fsLen_largest : nextOf State.cached (exec .fsLen (withBuf (hdr 0x00 0x01 0xFF 0xFF 0xFF))) =
    some (some 16711505) := by decide +kernel

/-- R162: `LEN = L - 1` waits. -/
theorem test_fsWaitbody : nextOf (fun t => (t.cached, t.pos)) (exec .fsWaitbody (withBuf (frameA.take 82) (some 83))) =
    some (some 83, .idle) := by decide +kernel

/-- R163: `BUF = Fa ++ 53`. -/
theorem test_fsEmit :
    nextOf (fun t => (t.buf, t.cached, t.st, events t)) (exec .fsEmit (withBuf (frameA ++ [0x53]) (some 83))) =
    some ([0x53], none, .accumulatingHeader, [.frame frameA, .samples 1 .three 0x01#6 1 [(0, [0x123456#32])]]) := by
  decide +kernel

/-! ### The header parser (40_header_parser, V-HP) -/

/-- A header view for the tests: `H0` with one byte changed. -/
def h0With (i : Nat) (b : Byte) : View := .bytes (header0.set i b)

/-- V-HP-05. -/
theorem test_hpMarker : nextOf State.ret (exec (.hpMarker (.bytes header0)) s0) = some (.flag true) := by decide +kernel
theorem test_hpMarker_last_byte : nextOf State.ret (exec (.hpMarker (h0With 11 0x20)) s0) = some (.flag false) := by
  decide +kernel

/-- V-HP-07. -/
theorem test_hpHdrsize : nextOf State.ret (exec (.hpHdrsize (h0With 12 0x00)) s0) = some (.hdrSize 0 false) := by
  decide +kernel

/-- V-HP-02: ConfigWord 7F and 80. -/
theorem test_hpWidth_7F : nextOf State.ret (exec (.hpWidth (h0With 13 0x7F)) s0) = some (.width .three) := by decide +kernel
theorem test_hpWidth_80 : nextOf State.ret (exec (.hpWidth (h0With 13 0x80)) s0) = some (.width .four) := by decide +kernel

theorem test_hpIntoff : nextOf State.ret (exec (.hpIntoff (h0With 13 0x40)) s0) = some (.flag true) := by decide +kernel
theorem test_hpLowpwr : nextOf State.ret (exec (.hpLowpwr (h0With 13 0x20)) s0) = some (.flag true) := by decide +kernel
theorem test_hpLowrate : nextOf State.ret (exec (.hpLowrate (h0With 13 0x10)) s0) = some (.flag true) := by decide +kernel
theorem test_hpIntoff_off : nextOf State.ret (exec (.hpIntoff (h0With 13 0xBF)) s0) = some (.flag false) := by decide +kernel
theorem test_hpLowpwr_off : nextOf State.ret (exec (.hpLowpwr (h0With 13 0xDF)) s0) = some (.flag false) := by decide +kernel
theorem test_hpLowrate_off : nextOf State.ret (exec (.hpLowrate (h0With 13 0xEF)) s0) = some (.flag false) := by decide +kernel

/-- V-HP-02: ConfigWord 9F. -/
theorem test_hpCfg : nextOf State.ret (exec (.hpCfg (h0With 13 0x9F)) s0) = some (.cfg 0x9F 0xF#4) := by decide +kernel

/-- R115: with `E5` channel 3 is enabled, EN = 0x25, n = 3; channel 2 is not. -/
theorem test_hpChen : nextOf State.ret (exec (.hpChen (h0With 14 0xE5) 2) s0) = some (.chEn true 0x25#6 3) := by
  decide +kernel
theorem test_hpChen_disabled : nextOf State.ret (exec (.hpChen (h0With 14 0xE5) 1) s0) = some (.chEn false 0x25#6 3) := by
  decide +kernel

theorem test_hpChmap : nextOf State.ret (exec (.hpChmap (.bytes header0)) s0) = some (.nat 0x25) := by decide +kernel

/-- R116: 4, and 1024 with NATIVE_ORDER = big. -/
theorem test_hpBsamples : nextOf State.ret (exec (.hpBsamples (.bytes header0)) s0) = some (.nat 4) := by decide +kernel
theorem test_hpBsamples_big :
    nextOf State.ret (exec (.hpBsamples (.bytes header0)) { s0 with cfg := { cfg0 with nativeOrder := .big } }) =
    some (.nat 1024) := by decide +kernel

theorem test_hpSbytes : nextOf State.ret (exec (.hpSbytes (.bytes header0)) s0) = some (.nat 9) := by decide +kernel

/-- V-HP-01 and V-HP-07: 116, whatever HeaderSize says. -/
theorem test_hpFlen : nextOf State.ret (exec (.hpFlen (h0With 12 0x00)) s0) = some (.nat 116) := by decide +kernel

/-- A header whose byte `i` is `i` (not a valid one): the raw ranges show their offsets (R82). -/
def ramp : Bytes := (List.range 80).map fun i => BitVec.ofNat 8 i

theorem test_hpStime : nextOf State.ret (exec (.hpStime (.bytes ramp)) s0) =
    some (.bytes [18, 19, 20, 21, 22, 23, 24, 25]) := by decide +kernel
theorem test_hpMisc : nextOf State.ret (exec (.hpMisc (.bytes ramp)) s0) =
    some (.bytes [26, 27, 28, 29, 30, 31, 32]) := by decide +kernel
theorem test_hpRevboard : nextOf State.ret (exec (.hpRevboard (.bytes ramp)) s0) =
    some (.bytes [26, 27, 28, 29, 30, 31, 32]) := by decide +kernel
theorem test_hpGps : nextOf State.ret (exec (.hpGps (.bytes ramp)) s0) =
    some (.bytes [33, 34, 35, 36, 37, 38, 39, 40, 41, 42, 43, 44, 45, 46, 47, 48, 49, 50, 51, 52]) := by decide +kernel
theorem test_hpPosstr : nextOf State.ret (exec (.hpPosstr (.bytes ramp)) s0) =
    some (.bytes [54, 55, 56, 57, 58, 59, 60, 61, 62, 63, 64, 65, 66, 67, 68, 69, 70, 71, 72, 73, 74, 75, 76]) := by
  decide +kernel
theorem test_hpTail : nextOf State.ret (exec (.hpTail (.bytes ramp)) s0) = some (.bytes [77, 78, 79]) := by decide +kernel

/-- S8. -/
theorem test_hpBatt : nextOf State.ret (exec (.hpBatt (.given 256)) s0) = some (.rational (25 / 2)) := by decide +kernel
theorem test_hpTemp : nextOf State.ret (exec (.hpTemp (.given 0)) s0) = some (.rational (-60)) := by decide +kernel
theorem test_hpTemp_256 : nextOf State.ret (exec (.hpTemp (.given 256)) s0) = some (.rational 65) := by decide +kernel

/-- R125: the fix is the open parameter's; the accessor completes. -/
theorem test_hpGpsfix : (nextOf State.ret (exec (.hpGpsfix (.bytes ramp)) s0)).isSome = true := by decide +kernel

/-- R126. -/
theorem test_hpGpsage : nextOf State.ret (exec (.hpGpsage (.given (some (19 / 2)))) s0) = some (.gpsAge .fresh) := by
  decide +kernel
theorem test_hpGpsage_none : nextOf State.ret (exec (.hpGpsage (.given none)) s0) = some (.gpsAge .unavailable) := by
  decide +kernel

/-- V-HP-06. -/
theorem test_hpPosdisc : nextOf State.ret (exec (.hpPosdisc (h0With 53 0xFF)) s0) = some (.posDisc 255 .invalid) := by
  decide +kernel
theorem test_hpPosdisc_02 : nextOf State.ret (exec (.hpPosdisc (h0With 53 0x02)) s0) = some (.posDisc 2 .undefined) := by
  decide +kernel

/-- R130 with this test's table: bits 7 and 4 set select the fourth entry, 4 ms, 250 Hz. -/
theorem test_hpInterval : nextOf State.ret (exec (.hpInterval (h0With 13 0x90)) s0) = some (.interval 4 250) := by
  decide +kernel

/-- R134: the buffer's header, and a buffer too short for one. -/
theorem test_view_buf : nextOf State.ret (exec (.hpSbytes .buf) (withBuf frameA)) = some (.nat 3) := by decide +kernel
theorem test_view_short : faultedWith .headerOutOfBounds (exec (.hpSbytes .buf) (withBuf (garbage 79))) = true := by
  decide +kernel

/-! ### The demultiplexer (42_sample_demux, V-DX) -/

/-- S2: the lanes of `Fd`. -/
theorem test_dxTranscode : nextOf events (exec (.dxTranscode frameD) s0) =
    some [.samples 1 .three 0x25#6 4
      [(0, [0x101112#32, 0x191A1B#32, 0x222324#32, 0x2B2C2D#32]),
       (2, [0x131415#32, 0x1C1D1E#32, 0x252627#32, 0x2E2F30#32]),
       (5, [0x161718#32, 0x1F2021#32, 0x28292A#32, 0x313233#32])]] := by decide +kernel

/-- V-DX-02 (4-byte samples, little-endian), V-DX-03 (slot padding), V-CP-01 (no channel enabled). -/
theorem test_dxTranscode_forms :
    [frame4, frameP, frameN].map (fun f => nextOf events (exec (.dxTranscode f) s0)) =
    [some [.samples 1 .four 0x03#6 2 [(0, [305419896#32, 0x80000000#32]), (1, [0xFFFFFFFF#32, 2147483647#32])]],
      some [.samples 1 .three 0x01#6 2 [(0, [66051#32, BitVec.ofInt 32 (-2)])]],
      some [.samples 1 .three 0#6 2 []]] := by decide +kernel

/-- V-DX-06: `Fa[0..82)`. -/
theorem test_dxCheck_short_body : nextOf events (exec (.dxCheck (frameA.take 82)) s0) =
    some [.err .malformedFrame .shortBody] := by decide +kernel

/-- V-DX-07: zero length comes before slot overrun. -/
theorem test_dxCheck_priority : nextOf events (exec (.dxCheck (hdr 0x00 0x3F 0x00 0x00 0x03)) s0) =
    some [.err .invalidHeaderField .zeroLength] := by decide +kernel

/-- V-DX-04. -/
theorem test_dxOffset : nextOf State.ret (exec (.dxOffset 0x25#6 .three 5) s0) = some (.nat 6) := by decide
theorem test_dxOffset_4 : nextOf State.ret (exec (.dxOffset 0x3F#6 .four 5) s0) = some (.nat 20) := by decide

/-- R197: `a(6, 3)` in `Fd` is 113. -/
theorem test_dxAddr : nextOf State.ret (exec (.dxAddr 3 9 6) s0) = some (.nat 113) := by decide

/-- Operands for which R196 and R197 state no value: the operation runs all the same. -/
theorem test_dxOffset_disabled_runs :
    nextOf State.buf (step { s0 with inp := [.op (.dxOffset 0x25#6 .three 1)] }) = some [] := by decide
theorem test_dxAddr_beyond_runs :
    nextOf State.buf (step { s0 with inp := [.op (.dxAddr 65535 256 21)] }) = some [] := by decide

/-- R198. -/
theorem test_dxLoad3 : nextOf State.ret (exec (.dxLoad3 frameD 80) s0) = some (.raw24 0x101112#24) := by decide +kernel
theorem test_dxLoad3_outside : faultedWith .sampleOutOfBounds (exec (.dxLoad3 frameD 114) s0) = true := by decide +kernel

/-- S1 and R199. -/
theorem test_dxSext24 : nextOf State.ret (exec (.dxSext24 0x800000#24) s0) = some (.sample (BitVec.ofInt 32 (-8388608))) := by
  decide
theorem test_dxSext24_positive : nextOf State.ret (exec (.dxSext24 0x008000#24) s0) = some (.sample 32768#32) := by decide

/-- V-DX-02, little and big. -/
theorem test_dxLoad4 : nextOf State.ret (exec (.dxLoad4 frame4 80) s0) = some (.sample 305419896#32) := by decide +kernel
theorem test_dxLoad4_big :
    nextOf State.ret (exec (.dxLoad4 frame4 80) { s0 with cfg := { cfg0 with nativeOrder := .big } }) =
    some (.sample 2018915346#32) := by decide +kernel

/-! ### The converter (43_channel_parallel, V-CP) -/

/-- The registers of a transcode of `Fa` in progress, with the given lane of channel 1. -/
def regsA (lane : List Sample) : DxRegs :=
  { f := frameA, w := .three, en := 0x01#6, bs := 1, sb := 3, ch := (Vector.replicate 6 []).set 0 lane }

/-- R220. -/
theorem test_cpCollect :
    nextOf (fun t => t.dx.map DxRegs.ch) (exec (.cpCollect 0 0 0x123456#32) { s0 with dx := some (regsA []) }) =
    some (some (regsA [0x123456#32]).ch) := by decide +kernel

theorem test_cpCollect_disabled :
    refusedWith .notSelected (exec (.cpCollect 1 0 0) { s0 with dx := some (regsA []) }) = true := by decide +kernel

/-- R222. -/
theorem test_cpOut :
    nextOf (fun t => (events t, t.fseq)) (exec (.cpOut frameA) { s0 with dx := some (regsA [0x123456#32]) }) =
    some ([.samples 1 .three 0x01#6 1 [(0, [0x123456#32])]], 2) := by decide +kernel

/-- R226. -/
theorem test_cpRestart : nextOf (fun t => (events t, t.fseq)) (exec .cpRestart { s0 with fseq := 5 }) =
    some ([.restart], 1) := by decide

/-! ### Witnesses: for each statement with hypotheses, a state and operands that meet them together -/

/-- Did the outcome go on? -/
def goesOn (o : Host.Outcome State Fault Refusal) : Bool :=
  match o with
  | .next _ => true
  | .fault _ => false
  | .refused _ => false

theorem exists_next {o : Host.Outcome State Fault Refusal} (h : goesOn o = true) : ∃ t, o = .next t := by
  cases o with
  | next t => exact ⟨t, rfl⟩
  | fault _ => cases h
  | refused _ => cases h

/-- `Fa` but for its last byte, its length cached, and the last beat requested. -/
def waiting : State := { withBuf (frameA.take 82) (some 83) with inp := [.word 0x356#11] }

/-- A finite capacity that the buffer of 80 bytes fills. -/
def full : State := { withBuf (garbage 80) with cfg := { cfg0 with bufCap := some 80 } }

theorem headerOf_exists {f : Bytes} {l : Nat} (h : (headerOf f).map (Header.frameLen cfg0) = some l) :
    ∃ h, headerOf f = some h ∧ l = h.frameLen cfg0 := by
  cases hf : headerOf f with
  | none => rw [hf] at h; cases h
  | some x => rw [hf] at h; exact ⟨x, rfl, (Option.some.inj h).symm⟩

theorem inv_s0 : Inv s0 where
  cachedOk := nofun
  stOk := by decide
  searchedOk := by decide
  stepCOk := by decide
  stepDOk := by decide
  quiet := fun _ _ => .inl ⟨rfl, by decide⟩
  fseqOk := by decide
  memOk := by decide

theorem inv_waiting : Inv waiting where
  cachedOk := by
    intro l hl
    cases hl
    obtain ⟨h, h1, h2⟩ := headerOf_exists (f := frameA.take 82) (l := 83) (by decide +kernel)
    exact ⟨h, h1, by decide +kernel, h2⟩
  stOk := by decide
  searchedOk := by decide
  stepCOk := by decide
  stepDOk := by decide
  quiet := fun _ _ => .inr ⟨83, rfl, by decide +kernel, by decide +kernel⟩
  fseqOk := by decide
  memOk := by decide +kernel

theorem valid_frameA : ValidFrame cfg0 frameA := by
  obtain ⟨h, h1, h2⟩ := headerOf_exists (f := frameA) (l := 83) (by decide +kernel)
  exact ⟨h, h1, by decide +kernel, h2⟩

/-- For EveryCommandWordHasExactlyOneRow, NopDoesNothing, ResetClearsTheBlock and ReservedCommandIsRefused: the last word
of each row. -/
theorem witness_EveryCommandWordHasExactlyOneRow :
    0x1FF#11 &&& 0x600#11 = 0x000#11 ∧ 0x2FF#11 &&& 0x700#11 = 0x200#11 ∧ 0x3FF#11 &&& 0x700#11 = 0x300#11 ∧
      0x5FF#11 &&& 0x600#11 = 0x400#11 ∧ 0x7FF#11 &&& 0x600#11 = 0x600#11 := by decide
theorem witness_DecodeUndoesEncode : encode (.push [0xFF, 0x00]) = some [0x2FF#11, 0x300#11] := by decide
theorem witness_EncodeUndoesDecode : cmdOp 0x3FF#11 = 1#2 ∧ cmdOp 0x7FF#11 ≠ 1#2 := by decide
theorem witness_StepRunsTheDecodedRequest :
    select waiting = none ∧ waiting.inp = .word 0x356#11 :: [] ∧
      (Instr.dxLoad3 [1, 2, 3] 0).wellFormed = true ∧ (Instr.dxLoad3 [1, 2, 3] 1).wellFormed = false ∧ s0.inp = [] ∧
      2047 < 2048 := by decide +kernel
theorem witness_StepRunsTheSelectedMicroOp : select { withBuf (garbage 80) with pos := .testA } = some .search := by decide
theorem witness_StepKeepsInvariant : Inv waiting ∧ ∃ t, step waiting = .next t :=
  ⟨inv_waiting, exists_next (by decide +kernel)⟩
theorem witness_LoopAlwaysSelects : Inv { s0 with pos := .testA } ∧ ({ s0 with pos := .testA } : State).pos ≠ .idle :=
  ⟨{ inv_s0 with searchedOk := by decide, stepCOk := by decide, stepDOk := by decide, quiet := by intro h; cases h },
    by decide⟩
theorem witness_ConfigurationNeverChanges : ∃ t, exec (.push frameA) s0 = .next t := exists_next (by decide +kernel)
theorem witness_NoFeedbackFromSinks :
    (∃ t, exec (.push frameA) s0 = .next t) ∧ exec (.hpTail (.bytes [])) s0 = .fault .headerOutOfBounds ∧
      exec .fsSearch s0 = .refused .notSelected := ⟨exists_next (by decide +kernel), rfl, rfl⟩
theorem witness_EveryByteIsAccountedFor : Instr.push (garbage 80) ≠ .reset ∧ ∃ t, exec (.push (garbage 80)) s0 = .next t :=
  ⟨by decide, exists_next (by decide +kernel)⟩
theorem witness_FseqCountsTheRecords :
    Instr.dxTranscode frameA ≠ .reset ∧ Instr.dxTranscode frameA ≠ .cpRestart ∧
      ∃ t, exec (.dxTranscode frameA) s0 = .next t := ⟨by decide, by decide, exists_next (by decide +kernel)⟩
theorem witness_OnlyResetEndsTheBodyEarly :
    waiting.cached = some 83 ∧ Instr.pushbL 0x56 ≠ .reset ∧ ∃ t, exec (.pushbL 0x56) waiting = .next t :=
  ⟨rfl, by decide, exists_next (by decide +kernel)⟩
/-- For PushbAppendsOneByte, PushbLRunsTheLoopToRest, PushRunsTheLoopToRest, AppendsAreRefusedExactlyWhenFull,
PushEqualsItsBeats and AppendKeepsOldOffsets. -/
theorem witness_Appends :
    (∀ c, s0.cfg.bufCap = some c → s0.buf.length + frameA.length ≤ c) ∧ frameA ≠ [] ∧
      (∃ c, full.cfg.bufCap = some c ∧ c < full.buf.length + 1) ∧ ∃ t, exec (.push frameA) s0 = .next t :=
  ⟨nofun, by decide, ⟨80, rfl, by decide⟩, exists_next (by decide +kernel)⟩
/-- For the quiet part of PushRunsTheLoopToRest: an empty block, and one that waits for a body. -/
theorem witness_PushRunsTheLoopToRest :
    (Inv s0 ∧ s0.pos = .idle ∧ s0.chunkOpen = false) ∧ Inv waiting ∧ waiting.pos = .idle ∧ waiting.chunkOpen = false :=
  ⟨⟨inv_s0, rfl, rfl⟩, inv_waiting, rfl, rfl⟩
theorem witness_WaitsChangeNothing :
    (withBuf (garbage 79)).buf.length < 80 ∧ waiting.cached = some 83 ∧ waiting.buf.length < 83 := by decide +kernel
theorem witness_SearchFindsTheFirstMarker : 80 ≤ (withBuf (garbage 80)).buf.length := by decide
theorem witness_TailIsTheTrailingMarkerPart :
    (∀ j ∈ [1, 11], 1 ≤ j ∧ j ≤ 11 ∧ j ≤ (garbage 69 ++ marker.take j).length ∧
      (garbage 69 ++ marker.take j).drop ((garbage 69 ++ marker.take j).length - j) = marker.take j) := by decide +kernel
theorem witness_MarkersNeverOverlap :
    (((marker ++ marker).drop 0).take 12 = marker) ∧ ((marker ++ marker).drop 12).take 12 = marker := by decide
theorem witness_DiscardsWarnWithTheCount :
    findMarker (garbage 68 ++ marker) = some 68 ∧
      (findMarker (garbage 69 ++ marker.take 11) = none ∧ tailLen (garbage 69 ++ marker.take 11) = 11) ∧
      findMarker (garbage 80) = none ∧ tailLen (garbage 80) = 0 := by decide +kernel
theorem witness_LengthIsCachedFromTheHeader :
    80 ≤ (frameA.take 80).length ∧ (frameA.take 80).take 12 = marker ∧ (withBuf (frameA.take 80)).cached = none ∧
      80 ≤ waiting.buf.length ∧ waiting.buf.take 12 = marker ∧ waiting.cached = some 83 := by decide +kernel
theorem witness_EmitCutsAndTranscodes :
    (withBuf frameA (some 83)).cached = some 83 ∧ 83 ≤ (withBuf frameA (some 83)).buf.length := by decide +kernel
theorem witness_MicroOpsNeedTheirSelection :
    (garbage 79).length < 80 ∧ 80 ≤ (garbage 80).length ∧ findMarker (garbage 80) ≠ some 0 ∧
      findMarker frameA ≠ none ∧ (∃ k, findMarker (garbage 1 ++ frameA) = some (k + 1)) ∧ tailLen (garbage 80) = 0 ∧
      0 < tailLen (garbage 79 ++ [0x53]) ∧ waiting.buf.length < 83 ∧ s0.cached = none :=
  ⟨by decide, by decide, by decide +kernel, by decide +kernel, ⟨0, by decide +kernel⟩, by decide +kernel,
    by decide +kernel, by decide +kernel, rfl⟩
theorem witness_LoopIsARunOfSteps : ({ withBuf frameA with pos := .testA } : State).inp = [] := rfl
theorem witness_LosslessReframing :
    (s0.buf = [] ∧ s0.cached = none ∧ s0.st = .accumulatingHeader ∧ s0.pos = .idle ∧ s0.chunkOpen = false) ∧
      (∀ f ∈ [frameA, frameA], ValidFrame s0.cfg f) ∧
      [frameA.take 5, frameA.drop 5 ++ frameA].flatten = [frameA, frameA].flatten ∧
      ∀ c, s0.cfg.bufCap = some c → [frameA, frameA].flatten.length ≤ c :=
  ⟨by decide, by intro f hf; simp at hf; subst hf; exact valid_frameA, by decide +kernel, nofun⟩
theorem witness_FramesDoNotDependOnChunking :
    Inv s0 ∧ s0.pos = .idle ∧ [garbage 80 ++ frameA].flatten = [garbage 80, [], frameA].flatten ∧
      (∃ t, runInstrs ([garbage 80 ++ frameA].map Instr.push) s0 = .next t) ∧
      ∃ t, runInstrs ([garbage 80, [], frameA].map Instr.push) s0 = .next t :=
  ⟨inv_s0, rfl, by decide +kernel, exists_next (by decide +kernel), exists_next (by decide +kernel)⟩
/-- For FlagAccessors, NumberAccessors, RawRangeAccessors, RevisionAndBoardAreExposedRaw, FormulaAccessors and
ClassAccessors: each form of a view. -/
theorem witness_Accessors :
    viewBytes (.bytes header0) s0 = header0 ∧ viewBytes .buf (withBuf frameA) = frameA ∧
      viewBytes .frame { s0 with dx := some (regsA []) } = frameA ∧ 80 ≤ header0.length ∧ 80 ≤ frameA.length := by
  decide +kernel
theorem witness_ClassAccessors :
    (19 / 2 : Rat) < 10 ∧ (10 : Rat) < 21 / 2 ∧ (byteAt (header0.set 53 0xFF) 53).toNat = 255 ∧
      (byteAt header0 53).toNat = 0 ∧ (byteAt (header0.set 53 0x01) 53).toNat = 1 ∧
      (byteAt (header0.set 53 0x02) 53).toNat = 2 ∧ (byteAt (header0.set 53 0xFE) 53).toNat = 254 := by decide +kernel
theorem witness_AccessorsNeedEightyBytes :
    Instr.hpTail ∈ viewAccessors ∧ (viewBytes .buf (withBuf (garbage 79))).length < 80 :=
  ⟨by simp [viewAccessors], by decide⟩
theorem witness_AccessorsReadOnlyTheirField :
    Instr.hpSbytes ∈ viewAccessors ∧ hdrField (Instr.hpSbytes .buf) = some (17, 1) ∧ 80 ≤ header0.length ∧
      80 ≤ ramp.length ∧ (header0.drop 17).take 1 = ((ramp.set 17 0x09).drop 17).take 1 :=
  ⟨by simp [viewAccessors], by decide +kernel⟩
theorem witness_SignExtensionFromBit23 : (0x7FFFFF#24).toNat < 8388608 ∧ 8388608 ≤ (0x800000#24).toNat := by decide
/-- For ThreeByteLoad and FourByteLoad: the last address inside the frame and the first outside. -/
theorem witness_Loads :
    80 + 3 ≤ frameA.length ∧ frameA.length < 81 + 3 ∧ 92 + 4 ≤ frame4.length ∧ frame4.length < 93 + 4 := by decide +kernel
theorem witness_OffsetsAndAddresses :
    (0x3F#6).getLsbD (5 : Channel).val = true ∧ 65534 < 65535 ∧ 255 < 256 ∧ 20 ≤ 20 := by decide
/-- For ChecksInTheirOrder and ErrorsSkipOnlyTheFrame: each cause, and none. -/
theorem witness_ChecksInTheirOrder :
    [frameA.take 79, frameA.set 0 0, frameZ, frameO, frameA.take 82, frameA].map (failureOf cfg0) =
      [some .shortHeader, some .badMarker, some .zeroLength, some .slotOverrun, some .shortBody, none] := by
  decide +kernel
/-- For TranscodeYieldsTheLanes and RecordCarriesAllSamples. -/
theorem witness_TranscodeYieldsTheLanes :
    failureOf cfg0 frameD = none ∧ channelsOf frameD = [0, 2, 5] ∧ 3 < bsOf cfg0 frameD ∧
      sampleOf cfg0 frameD 5 3 = 0x313233#32 := by decide +kernel

/-- The header that the checks accept, if they do. -/
def acceptedHeader (cfg : Config) (f : Bytes) : Option Header :=
  match checkFrame cfg f with
  | .ok h => some h
  | .error _ => none

theorem checkFrame_of_accepted {cfg : Config} {f : Bytes} {h : Header} (e : acceptedHeader cfg f = some h) :
    checkFrame cfg f = .ok h := by
  unfold acceptedHeader at e
  split at e
  · cases e; assumption
  · cases e

/-- For ReadsStayInsideTheFrame and SamplesNeverOverlap: the last sample of the last channel of `Fd`, which R197 puts at
offset 113, and another sample of the same slot. -/
theorem witness_ReadsStayInsideTheFrame :
    ∃ h, checkFrame cfg0 frameD = .ok h ∧ chEn h.en 2 = true ∧ chEn h.en 5 = true ∧ 3 < h.blockSamples cfg0 ∧
      sampleAddr 3 h.sampleBytes (channelOffset h.en (h.width cfg0) 5) = 113 ∧ ((2 : Channel), 3) ≠ ((5 : Channel), 3) := by
  have e : (acceptedHeader cfg0 frameD).any (fun h => chEn h.en 2 && chEn h.en 5 && decide (3 < h.blockSamples cfg0) &&
      decide (sampleAddr 3 h.sampleBytes (channelOffset h.en (h.width cfg0) 5) = 113)) = true := by decide +kernel
  cases hh : acceptedHeader cfg0 frameD with
  | none => rw [hh] at e; cases e
  | some h =>
    rw [hh] at e
    simp only [Option.any_some, Bool.and_eq_true, decide_eq_true_eq] at e
    exact ⟨h, checkFrame_of_accepted hh, e.1.1.1, e.1.1.2, e.1.2, e.2, by decide⟩

/-- `Fd` with another HeaderSize, reserved bits set, and another last header byte. -/
def frameD' : Bytes := (((frameD.set 12 0).set 13 0x0F).set 14 0xE5).set 79 1

theorem witness_ReservedBitsDoNotMatter :
    frameD.take 12 = frameD'.take 12 ∧ bitOf (byteAt frameD 13) 7 = bitOf (byteAt frameD' 13) 7 ∧
      (byteAt frameD 14).toNat % 64 = (byteAt frameD' 14).toNat % 64 ∧
      [15, 16, 17].map (byteAt frameD) = [15, 16, 17].map (byteAt frameD') ∧ frameD.drop 80 = frameD'.drop 80 ∧
      frameD.length = frameD'.length ∧ frameD ≠ frameD' := by decide +kernel
theorem witness_CollectStoresInItsLane :
    (regsA []).en.getLsbD (0 : Channel).val = true ∧ 0 < (regsA []).bs ∧
      0 = ((regsA []).ch[(0 : Channel).val]).length := by decide +kernel
theorem witness_HandOverAndRestart :
    (regsA [7]).f = frameA ∧ failureOf cfg0 frameA = none ∧
      ∀ c : Channel, (regsA [7]).en.getLsbD c.val = true → ((regsA [7]).ch[c.val]).length = (regsA [7]).bs := by
  decide +kernel
theorem witness_TranscodeIsItsMicroOps :
    failureOf cfg0 frameD = none ∧ ∃ t, exec (.dxTranscode frameD) s0 = .next t :=
  ⟨by decide +kernel, exists_next (by decide +kernel)⟩

end Sys2Proof.Tests
end

section
/-! SUPPORT. The progress loop of R151: which micro-operation a state selects, the positions a run can reach, and that every
run comes to rest within `loopFuel` micro-operations. -/

namespace Sys2Proof.Machine

open Sys2Proof

/-! ### The selection, read off the state -/

/-- The `select` column of the table's FS rows (R100, R103), each with the loop position it is tested at and the operand the
test computes. -/
def FsOp.Enabled (s : State) (m : FsOp) : Prop :=
  match m with
  | .waitHdr => s.pos = .testA ∧ s.buf.length < 80
  | .search => s.pos = .testA ∧ 80 ≤ s.buf.length
  | .sync0 => s.pos = .searched ∧ 80 ≤ s.buf.length ∧ findMarker s.buf = some 0
  | .dropK k => s.pos = .searched ∧ 80 ≤ s.buf.length ∧ findMarker s.buf = some k ∧ 0 < k
  | .keepTail j => s.pos = .searched ∧ 80 ≤ s.buf.length ∧ findMarker s.buf = none ∧ tailLen s.buf = j ∧ 0 < j
  | .flush => s.pos = .searched ∧ 80 ≤ s.buf.length ∧ findMarker s.buf = none ∧ tailLen s.buf = 0
  | .len n => s.pos = .stepC ∧ findMarker s.buf = some 0 ∧ ∃ h, headerOf s.buf = some h ∧ h.frameLen s.cfg = n
  | .waitBody => s.pos = .stepD ∧ ∃ l, s.cached = some l ∧ s.buf.length < l
  | .emit l => s.pos = .stepD ∧ s.cached = some l ∧ l ≤ s.buf.length

theorem enabled_of_select {s : State} {m : FsOp} (h : select s = some m) : m.Enabled s := by
  unfold select selectAt at h
  split at h <;> rename_i hp
  · cases h
  · split at h <;> cases h <;> simp_all [FsOp.Enabled]
  · repeat' split at h
    all_goals cases h
    all_goals simp_all [FsOp.Enabled]
  · split at h <;> cases h
    exact ⟨hp, ‹_›, _, ‹_›, rfl⟩
  · repeat' split at h
    all_goals cases h
    all_goals simp_all [FsOp.Enabled]

theorem select_of_enabled {s : State} {m : FsOp} (h : m.Enabled s) : select s = some m := by
  cases m with
  | waitHdr => obtain ⟨hp, hl⟩ := h; simp [select, selectAt, hp, hl]
  | search => obtain ⟨hp, hl⟩ := h; simp [select, selectAt, hp, hl]
  | sync0 => obtain ⟨hp, hl, hk⟩ := h; simp [select, selectAt, hp, hl, hk]
  | dropK k =>
    obtain ⟨hp, hl, hk, h0⟩ := h
    obtain ⟨k, rfl⟩ := Nat.exists_eq_succ_of_ne_zero h0.ne'
    simp [select, selectAt, hp, hl, hk]
  | keepTail j =>
    obtain ⟨hp, hl, hk, hj, h0⟩ := h
    obtain ⟨j, rfl⟩ := Nat.exists_eq_succ_of_ne_zero h0.ne'
    simp [select, selectAt, hp, hl, hk, hj]
  | flush => obtain ⟨hp, hl, hk, hj⟩ := h; simp [select, selectAt, hp, hl, hk, hj]
  | len n => obtain ⟨hp, hk, x, hx, rfl⟩ := h; simp [select, selectAt, hp, hk, hx]
  | waitBody => obtain ⟨hp, l, hc, hl⟩ := h; simp [select, selectAt, hp, hc, hl]
  | emit l => obtain ⟨hp, hc, hl⟩ := h; simp [select, selectAt, hp, hc, hl]

/-- A state selects exactly the micro-operation whose predicate holds. -/
theorem select_eq_some_iff {s : State} {m : FsOp} : select s = some m ↔ m.Enabled s :=
  ⟨enabled_of_select, select_of_enabled⟩

/-! ### The positions a run reaches -/

/-- R31: the data agree with the loop position, so that the tests there have an answer. -/
structure LoopReady (s : State) : Prop where
  searchedOk : s.pos = .searched → 80 ≤ s.buf.length
  stepCOk : s.pos = .stepC → 80 ≤ s.buf.length ∧ s.buf.take 12 = marker
  stepDOk : s.pos = .stepD → s.lv = true

theorem loopReady_of_idle {s : State} (h : s.pos = .idle) : LoopReady s := by
  constructor <;> simp [h]

theorem loopReady_of_testA {s : State} (h : s.pos = .testA) : LoopReady s := by
  constructor <;> simp [h]

/-- R103: where the data agree with the position, the loop goes on until it is at rest. -/
theorem exists_select_of_loopReady {s : State} (h : LoopReady s) (hp : s.pos ≠ .idle) : ∃ m, select s = some m := by
  simp only [select_eq_some_iff]
  cases hpos : s.pos with
  | idle => exact absurd hpos hp
  | testA =>
    rcases Nat.lt_or_ge s.buf.length 80 with hl | hl
    · exact ⟨.waitHdr, hpos, hl⟩
    · exact ⟨.search, hpos, hl⟩
  | searched =>
    have hl := h.searchedOk hpos
    cases hk : findMarker s.buf with
    | some k =>
      rcases Nat.eq_zero_or_pos k with rfl | h0
      · exact ⟨.sync0, hpos, hl, hk⟩
      · exact ⟨.dropK k, hpos, hl, hk, h0⟩
    | none =>
      rcases Nat.eq_zero_or_pos (tailLen s.buf) with h0 | h0
      · exact ⟨.flush, hpos, hl, hk, h0⟩
      · exact ⟨.keepTail _, hpos, hl, hk, rfl, h0⟩
  | stepC =>
    obtain ⟨hl, hm⟩ := h.stepCOk hpos
    exact ⟨.len _, hpos, (findMarker_eq_zero _).mpr hm, _, headerOf_of_le hl, rfl⟩
  | stepD =>
    obtain ⟨l, hc⟩ := Option.isSome_iff_exists.mp (h.stepDOk hpos)
    rcases Nat.lt_or_ge s.buf.length l with hl | hl
    · exact ⟨.waitBody, hpos, l, hc, hl⟩
    · exact ⟨.emit l, hpos, hc, hl⟩

/-- A selected micro-operation leaves data that agree with the position it goes to. -/
theorem loopReady_apply {s : State} {m : FsOp} (hs : select s = some m) : LoopReady (m.apply s) := by
  have he := enabled_of_select hs
  cases m with
  | waitHdr | waitBody | keepTail => exact loopReady_of_idle rfl
  | dropK | flush => exact loopReady_of_testA rfl
  | emit l => exact loopReady_of_testA (emitFrame_pos l s)
  | search => constructor <;> simp [FsOp.apply, he.2]
  | sync0 =>
    obtain ⟨-, hl, hk⟩ := he
    constructor <;> simp [FsOp.apply, hl, (findMarker_eq_zero _).mp hk]
  | len n => constructor <;> simp [FsOp.apply, State.lv, cacheLen_cached]

/-! ### Termination -/

/-- A cached length of 0, which no header gives, makes one round of four micro-operations that removes no byte. -/
def emptyRound (cached : Option Nat) : Nat :=
  match cached with
  | some 0 => 4
  | some (_ + 1) | none => 0

@[simp] theorem emptyRound_none : emptyRound none = 0 := rfl

@[simp] theorem emptyRound_zero : emptyRound (some 0) = 4 := rfl

theorem emptyRound_le (cached : Option Nat) : emptyRound cached ≤ 4 := by
  unfold emptyRound; split <;> omega

theorem emptyRound_of_pos {l : Nat} (h : 0 < l) : emptyRound (some l) = 0 := by
  obtain ⟨l, rfl⟩ := Nat.exists_eq_succ_of_ne_zero h.ne'
  rfl

/-- The micro-operations still to come are at most this many: four for each byte and the rest of the present round. -/
def loopMeasure (s : State) : Nat :=
  match s.pos with
  | .idle => 0
  | .testA => 4 * s.buf.length + emptyRound s.cached + 4
  | .searched => 4 * s.buf.length + emptyRound s.cached + 3
  | .stepC => 4 * s.buf.length + emptyRound s.cached + 2
  | .stepD => 4 * s.buf.length + emptyRound s.cached + 1

theorem loopMeasure_le_loopFuel {s : State} (h : s.pos = .testA) : loopMeasure s ≤ loopFuel s.buf.length := by
  have := emptyRound_le s.cached
  simp only [loopMeasure, loopFuel, h]
  omega

theorem pos_eq_idle_of_loopMeasure {s : State} (h : loopMeasure s = 0) : s.pos = .idle := by
  cases hp : s.pos <;> simp [loopMeasure, hp] at h ⊢

/-- R151: every micro-operation comes nearer to the stop; every `again` after a cut or a discard removes at least one byte. -/
theorem loopMeasure_apply_lt {s : State} {m : FsOp} (hs : select s = some m) :
    loopMeasure (m.apply s) < loopMeasure s := by
  have he := enabled_of_select hs
  cases m with
  | waitHdr => simp [FsOp.apply, loopMeasure, he.1]
  | search => simp [FsOp.apply, loopMeasure, he.1]
  | sync0 => simp [FsOp.apply, loopMeasure, he.1]
  | dropK k =>
    obtain ⟨hp, hl, -, h0⟩ := he
    simp only [FsOp.apply, loopMeasure, hp, dropToMarker_pos, dropToMarker_buf, dropToMarker_cached, List.length_drop]
    omega
  | keepTail j => simp [FsOp.apply, loopMeasure, he.1]
  | flush =>
    obtain ⟨hp, hl, -⟩ := he
    simp only [FsOp.apply, loopMeasure, hp, flushAll_pos, flushAll_buf, flushAll_cached, List.length_nil]
    omega
  | len n =>
    obtain ⟨hp, -, h, -, rfl⟩ := he
    have hn : 0 < h.frameLen s.cfg := by simp [Header.frameLen]
    cases hc : s.cached with
    | none => simp [FsOp.apply, loopMeasure, hp, cacheLen_cached, hc, emptyRound_of_pos hn]
    | some l => simp [FsOp.apply, loopMeasure, hp, cacheLen_cached, hc]
  | waitBody => simp [FsOp.apply, loopMeasure, he.1]
  | emit l =>
    obtain ⟨hp, hc, hl⟩ := he
    simp only [FsOp.apply, loopMeasure, hp, hc, emitFrame_pos, emitFrame_buf, emitFrame_cached, List.length_drop]
    rcases Nat.eq_zero_or_pos l with rfl | h0
    · simp
    · simp only [emptyRound_of_pos h0, emptyRound_none]
      omega

/-- Enough micro-operations bring the loop to rest. -/
theorem progress_pos_of_loopMeasure_le {n : Nat} {s : State} (hr : LoopReady s) (hn : loopMeasure s ≤ n) :
    (progress n s).pos = .idle := by
  induction n generalizing s with
  | zero => exact pos_eq_idle_of_loopMeasure (Nat.le_zero.mp hn)
  | succ n ih =>
    by_cases hp : s.pos = .idle
    · rwa [progress_of_rest _ (by simp [select, selectAt, hp])]
    · obtain ⟨m, hs⟩ := exists_select_of_loopReady hr hp
      rw [progress_of_select _ hs]
      have := loopMeasure_apply_lt hs
      exact ih (loopReady_apply hs) (by omega)

/-- R151: from test (a) the loop comes to rest within its fuel, whatever the state. -/
theorem progress_loopFuel_pos {s : State} (h : s.pos = .testA) :
    (progress (loopFuel s.buf.length) s).pos = .idle :=
  progress_pos_of_loopMeasure_le (loopReady_of_testA h) (loopMeasure_le_loopFuel h)

/-! ### Rounds that end without a new byte -/

/-- Test (a) on too few bytes for a header: FS.WAITHDR stops the loop. -/
theorem progress_of_short {s : State} (hl : s.buf.length < 80) :
    progress 1 { s with pos := .testA } = { s with pos := .idle } :=
  progress_of_select 0 (m := .waitHdr) (select_of_enabled ⟨rfl, hl⟩)

/-- A round at a frame whose length is cached and whose body is not complete: FS.SEARCH finds the marker, FS.LEN keeps the
cached length, FS.WAITBODY stops the loop.  The search result is all that changes. -/
theorem progress_of_short_body {s : State} {l : Nat} (hc : s.cached = some l) (hm : s.buf.take 12 = marker)
    (h80 : 80 ≤ s.buf.length) (hl : s.buf.length < l) :
    progress 4 { s with pos := .testA } = { s with pos := .idle, ret := .search (some 0) none } := by
  have hk : findMarker s.buf = some 0 := (findMarker_eq_zero _).mpr hm
  calc progress 4 { s with pos := .testA }
    _ = progress 3 (searchMarker { s with pos := .testA }) :=
      progress_of_select 3 (m := .search) (select_of_enabled ⟨rfl, h80⟩)
    _ = progress 2 (syncAtZero (searchMarker { s with pos := .testA })) :=
      progress_of_select 2 (m := .sync0) (select_of_enabled ⟨rfl, h80, hk⟩)
    _ = progress 1 (cacheLen _ (syncAtZero (searchMarker { s with pos := .testA }))) :=
      progress_of_select 1 (m := .len _) (select_of_enabled ⟨rfl, hk, _, headerOf_of_le h80, rfl⟩)
    _ = progress 1 { searchMarker { s with pos := .testA } with pos := .stepD } :=
      congrArg (progress 1) (cacheLen_of_some _ l _ hc)
    _ = stopLoop { searchMarker { s with pos := .testA } with pos := .stepD } :=
      progress_of_select 0 (m := .waitBody) (select_of_enabled ⟨rfl, l, hc, hl⟩)
    _ = { s with pos := .idle, ret := .search (some 0) none } := by
      simp [stopLoop, searchMarker, hk]

end Sys2Proof.Machine
end

section
/-! SUPPORT. PUSH (R150): its own equations, and the quiescence of R26 seen as what the loop leaves alone. -/

namespace Sys2Proof.Machine

open Sys2Proof

theorem exec_push_nil (s : State) : exec (.push []) s = .next { s with ret := .consumed 0 } := rfl

/-- A chunk that fits is appended, and the loop runs from test (a) on its fuel. -/
theorem exec_push_of_fits {chunk : Bytes} {s : State} (hne : chunk ≠ [])
    (hfit : Memory.fits s.cfg.bufCap s.buf.length chunk.length = true) :
    exec (.push chunk) s = .next
      { progress (loopFuel (s.buf ++ chunk).length)
          { s with buf := s.buf ++ chunk, chunkOpen := false, pos := .testA }
        with ret := .consumed chunk.length } := by
  cases chunk with
  | nil => exact absurd rfl hne
  | cons b rest => exact if_pos hfit

/-- R26: in a quiescent state at rest the loop finds nothing to do. -/
theorem progress_of_quiescent {s : State} (hi : Inv s) (hp : s.pos = .idle) (hq : Quiescent s) :
    ∃ n r, progress n { s with pos := .testA } = { s with ret := r } := by
  have hs : ∀ r, ({ s with pos := .idle, ret := r } : State) = { s with ret := r } := by simp [hp]
  rcases hq with ⟨-, hl⟩ | ⟨l, hc, h80, hl⟩
  · exact ⟨1, s.ret, (progress_of_short hl).trans (hs _)⟩
  · obtain ⟨-, -, hm, -⟩ := hi.cachedOk l hc
    exact ⟨4, _, (progress_of_short_body hc hm h80 hl).trans (hs _)⟩

/-- Settles O19: the empty PUSH by its equation, the quiescent rounds by R26, the other chunks by the loop's termination. -/
theorem pushRunsTheLoopToRest : Obligations.PushRunsTheLoopToRest := by
  refine ⟨exec_push_nil, fun s hi hp ho => ?_, fun chunk s hne hfit => ?_⟩
  · obtain ⟨n, r, hu⟩ := progress_of_quiescent hi hp (hi.quiet hp ho)
    exact ⟨n, _, hu.symm, hp, rfl⟩
  · exact ⟨_, _, rfl, progress_loopFuel_pos rfl, exec_push_of_fits hne ((fits_iff _ _ _).mpr hfit)⟩

end Sys2Proof.Machine
end

section
/-! SUPPORT. Where DX reads (R64): what an accepted frame's checks give, where a sample's bytes lie (R196, R197), and that a
load answers from its own bytes alone (R10, R198, R200). -/

namespace Sys2Proof.Machine

open Sys2Proof

/-! ### The checks -/

/-- R191: the checks accept a frame exactly when it passes all five. -/
theorem checkFrame_eq_ok_iff {cfg : Config} {f : Bytes} {h : Header} :
    checkFrame cfg f = .ok h ↔
      headerOf f = some h ∧ h.markerOk = true ∧ h.blockSamples cfg * h.sampleBytes ≠ 0 ∧
        h.enabledCount * (h.width cfg).bytes ≤ h.sampleBytes ∧ h.frameLen cfg ≤ f.length := by
  unfold checkFrame Header.frameLen
  cases headerOf f with
  | none => simp
  | some x =>
    constructor
    · intro hok
      simp only at hok
      split_ifs at hok with hm hz hs hb
      cases hok
      exact ⟨rfl, by simpa using hm, hz, not_lt.mp hs, not_lt.mp hb⟩
    · rintro ⟨hx, hm, hz, hs, hb⟩
      cases hx
      simp [hm, hz, not_lt.mpr hs, not_lt.mpr hb]

/-! ### Offsets and addresses -/

/-- The number of enabled channels among the first `n`. -/
def enabledBelow (en : BitVec 6) (n : Nat) : Nat := (List.range n).countP fun i => en.getLsbD i

/-- An enabled channel is one more than those below it. -/
theorem enabledBelow_lt {en : BitVec 6} {c : Channel} {n : Nat} (he : chEn en c = true) (hn : c.val < n) :
    enabledBelow en c.val < enabledBelow en n := by
  have hsucc : enabledBelow en (c.val + 1) = enabledBelow en c.val + 1 := by
    have hbit : en.getLsbD c.val = true := he
    simp [enabledBelow, List.range_succ, hbit]
  have hmono : enabledBelow en (c.val + 1) ≤ enabledBelow en n := (List.range_sublist.mpr hn).countP_le
  omega

/-- The mask of R196 holds the bits below the channel's own. -/
theorem getLsbD_channelMask (c : Channel) (i : Fin 6) :
    ((1#6 <<< c.val) - 1#6).getLsbD i.val = decide (i.val < c.val) := by
  revert c i; decide

theorem range_filter_lt_channel (c : Channel) :
    (List.range 6).filter (fun i => decide (i < c.val)) = List.range c.val := by
  revert c; decide

/-- R196: `off(c)` is W times the number of enabled channels below `c`. -/
theorem channelOffset_eq (en : BitVec 6) (w : Width) (c : Channel) :
    channelOffset en w c = w.bytes * enabledBelow en c.val := by
  have hmask : popcount (en &&& ((1#6 <<< c.val) - 1#6)) = enabledBelow en c.val :=
    calc popcount (en &&& ((1#6 <<< c.val) - 1#6))
      _ = (List.range 6).countP fun i => en.getLsbD i && decide (i < c.val) :=
        List.countP_congr fun i hi => by
          rw [BitVec.getLsbD_and, getLsbD_channelMask c ⟨i, List.mem_range.mp hi⟩]
      _ = enabledBelow en c.val := by rw [← List.countP_filter, range_filter_lt_channel, enabledBelow]
  rw [channelOffset, hmask]

/-- R196: all enabled channels' bytes fit behind one another: `off(c) + W` is at most `n * W`. -/
theorem channelOffset_add_bytes_le {en : BitVec 6} {c : Channel} (w : Width) (he : chEn en c = true) :
    channelOffset en w c + w.bytes ≤ popcount en * w.bytes :=
  calc channelOffset en w c + w.bytes
    _ = (enabledBelow en c.val + 1) * w.bytes := by rw [channelOffset_eq]; ring
    _ ≤ popcount en * w.bytes := Nat.mul_le_mul_right _ (enabledBelow_lt he c.isLt)

theorem header_le_sampleAddr (slot sb off : Nat) : 80 ≤ sampleAddr slot sb off := by
  simp only [sampleAddr]; omega

/-- R197: bytes inside slot `k` of `bs` slots lie inside the body. -/
theorem sampleAddr_add_le {k bs sb off n : Nat} (hk : k < bs) (hoff : off + n ≤ sb) :
    sampleAddr k sb off + n ≤ 80 + bs * sb :=
  calc sampleAddr k sb off + n
    _ ≤ 80 + (k + 1) * sb := by rw [sampleAddr, Nat.succ_mul]; omega
    _ ≤ 80 + bs * sb := Nat.add_le_add_left (Nat.mul_le_mul_right _ hk) _

/-! ### Loads -/

/-- R10: `MemRead` answers the bytes at the offsets it is asked for. -/
theorem memRead_of_le {f : Bytes} {a n : Nat} (h : a + n ≤ f.length) :
    memRead f a n = some ((List.range n).map fun i => byteAt f (a + i)) := by
  rw [memRead, if_pos h]
  congr 1
  apply List.ext_getElem
  · simp; omega
  · intro i _ hi
    have hi' : a + i < f.length := by simp at hi; omega
    simp [byteAt, hi']

/-- `MemRead` sees no byte outside its `n`. -/
theorem memRead_congr {f g : Bytes} {a n : Nat} (hn : 0 < n) (h : a + n ≤ f.length)
    (hfg : (g.drop a).take n = (f.drop a).take n) : memRead g a n = memRead f a n := by
  have hlen := congrArg List.length hfg
  simp only [List.length_take, List.length_drop] at hlen
  have hg : a + n ≤ g.length := by omega
  rw [memRead, memRead, if_pos h, if_pos hg, hfg]

theorem load3_of_le {f : Bytes} {a : Nat} (h : a + 3 ≤ f.length) :
    load3 f a = some (u24Msb (byteAt f a) (byteAt f (a + 1)) (byteAt f (a + 2))) := by
  rw [load3, memRead_of_le h]; rfl

theorem load4_of_le (o : ByteOrder) {f : Bytes} {a : Nat} (h : a + 4 ≤ f.length) :
    load4 o f a = some (s32Native o (byteAt f a) (byteAt f (a + 1)) (byteAt f (a + 2)) (byteAt f (a + 3))) := by
  rw [load4, memRead_of_le h]; rfl

theorem width_bytes_pos (w : Width) : 0 < w.bytes := by cases w <;> decide

theorem loadSample_of_le (cfg : Config) {w : Width} {f : Bytes} {a : Nat} (h : a + w.bytes ≤ f.length) :
    ∃ v, loadSample cfg w f a = some v := by
  cases w with
  | three => exact ⟨_, congrArg (Option.map sext24) (load3_of_le h)⟩
  | four => exact ⟨_, load4_of_le cfg.nativeOrder h⟩

/-- A load is a function of what `MemRead` answers at its address. -/
theorem loadSample_congr (cfg : Config) {w : Width} {f g : Bytes} {a : Nat}
    (h : memRead g a w.bytes = memRead f a w.bytes) : loadSample cfg w g a = loadSample cfg w f a := by
  cases w with
  | three => simp only [loadSample, load3, show memRead g a 3 = memRead f a 3 from h]
  | four => simp only [loadSample, load4, show memRead g a 4 = memRead f a 4 from h]

/-- R190: the sample that the load answers is collected. -/
theorem demuxSample_of_load {cfg : Config} {c : Channel} {r : DxRegs} {slot : Nat} {v : Sample}
    (h : loadSample cfg r.w r.f (sampleAddr slot r.sb (channelOffset r.en r.w c)) = some v) :
    demuxSample cfg c r slot = collect c v r := by
  simp only [demuxSample, h]

/-- Settles O52: check 4 keeps a channel's bytes inside their slot, check 5 keeps the slots inside the frame, and a load
answers from its own bytes. -/
theorem readsStayInsideTheFrame : Obligations.ReadsStayInsideTheFrame := by
  intro cfg f h c k a hok hc hk ha
  obtain ⟨-, -, -, hslot, hlen⟩ := checkFrame_eq_ok_iff.mp hok
  have hin : a + (h.width cfg).bytes ≤ h.frameLen cfg :=
    ha ▸ sampleAddr_add_le hk ((channelOffset_add_bytes_le _ hc).trans hslot)
  obtain ⟨v, hv⟩ := loadSample_of_le cfg (hin.trans hlen)
  refine ⟨ha ▸ header_le_sampleAddr .., hin, hlen, v, hv, fun ch => ?_, fun g hg => ?_⟩
  · exact demuxSample_of_load (ha ▸ hv)
  · rw [loadSample_congr cfg (memRead_congr (width_bytes_pos _) (hin.trans hlen) hg), hv]

end Sys2Proof.Machine
end

section
/-! SUPPORT. The appends (R54, R72): the equation of each operation that appends, and when it is refused. -/

namespace Sys2Proof.Machine

open Sys2Proof

theorem exec_pushb (d : Byte) (s : State) :
    exec (.pushb d) s =
      if Memory.fits s.cfg.bufCap s.buf.length 1 then .next { s with buf := s.buf ++ [d], chunkOpen := true }
      else .refused .bufferFull := rfl

theorem exec_pushbL (d : Byte) (s : State) :
    exec (.pushbL d) s =
      if Memory.fits s.cfg.bufCap s.buf.length 1 then
        .next (runLoop { s with buf := s.buf ++ [d], chunkOpen := false })
      else .refused .bufferFull := rfl

theorem exec_fsAppend (chunk : Bytes) (s : State) :
    exec (.fsAppend chunk) s =
      if Memory.fits s.cfg.bufCap s.buf.length chunk.length then .next (appendChunk chunk s)
      else .refused .bufferFull := rfl

theorem exec_push_of_ne_nil {chunk : Bytes} (hne : chunk ≠ []) (s : State) :
    exec (.push chunk) s =
      if Memory.fits s.cfg.bufCap s.buf.length chunk.length then
        .next { runLoop { appendChunk chunk s with chunkOpen := false } with ret := .consumed chunk.length }
      else .refused .bufferFull := by
  cases chunk with
  | nil => exact absurd rfl hne
  | cons b rest => rfl

/-- R72: an append under the capacity's guard is refused exactly when it would make LEN exceed a finite capacity. -/
theorem append_refused_iff {cap : Option Nat} {len n : Nat} {t : State} :
    (if Memory.fits cap len n then .next t else .refused .bufferFull : Host.Outcome State Fault Refusal) =
      .refused .bufferFull ↔ ∃ c, cap = some c ∧ c < len + n := by
  have hfits : ¬ Memory.fits cap len n = true ↔ ∃ c, cap = some c ∧ c < len + n := by
    rw [fits_iff]; push Not; rfl
  rw [← hfits]
  split <;> simp [*]

/-- Settles O20: each append is guarded by the capacity, and the empty PUSH always answers a next state. -/
theorem appendsAreRefusedExactlyWhenFull : Obligations.AppendsAreRefusedExactlyWhenFull := by
  intro s d chunk
  refine ⟨?_, ?_, ?_, ?_, fun hne => ?_⟩
  · rw [exec_pushb]; exact append_refused_iff
  · rw [exec_pushbL]; exact append_refused_iff
  · rw [exec_fsAppend]; exact append_refused_iff
  · rw [exec_push_nil]; exact nofun
  · rw [exec_push_of_ne_nil hne]; exact append_refused_iff

/-- Settles O24: the next state by the equation of FS.APPEND, the reads by the buffer's laws. -/
theorem appendKeepsOldOffsets : Obligations.AppendKeepsOldOffsets := by
  intro chunk s hfit
  have hexec : exec (.fsAppend chunk) s = .next (appendChunk chunk s) := by
    rw [exec_fsAppend, if_pos ((fits_iff _ _ _).mpr hfit)]
  refine ⟨hexec, fun t ht => ?_⟩
  obtain rfl : appendChunk chunk s = t := Host.Outcome.next.inj (hexec.symm.trans ht)
  exact ⟨read_append_old s.buf chunk, read_append_new s.buf chunk⟩

end Sys2Proof.Machine
end

section
/-! The numeric codes (spec 30_encoding R105). -/

namespace Sys2Proof.Machine

open Sys2Proof

/-- Settles O58: one row of R105's table for each part; an event's code depends on its kind alone, so the last row
computes for every payload. -/
theorem codesAreThoseOfTheTable : Obligations.CodesAreThoseOfTheTable := by
  refine ⟨?warningKinds, ?errorClasses, ?causes, ?events⟩
  case warningKinds => rfl
  case errorClasses => rfl
  case causes => rfl
  case events => intro k n f r c x; rfl

end Sys2Proof.Machine
end

section
/-! SUPPORT. The header parser (spec 40_header_parser): each field of a view's header, read off the view's bytes, and an
accessor as the field it answers. -/

namespace Sys2Proof.Machine

open Sys2Proof

/-! ### Bits of a byte -/

/-- R8: bit `i` is the bit of weight `2^i`. -/
theorem getLsbD_eq_bitOf (b : Byte) (i : Nat) : b.getLsbD i = bitOf b i :=
  Nat.testBit_eq_decide_div_mod_eq

theorem extractLsb'_zero_eq_ofNat (n : Nat) (b : Byte) : b.extractLsb' 0 n = BitVec.ofNat n b.toNat := rfl

/-! ### The fields of a header, from the bytes it was taken from -/

section Fields

variable {f : Bytes} {h : Header} (hh : headerOf f = some h)
include hh

theorem headerOf_byte (i : Nat) (hi : i < 80) : h.byte i hi = byteAt f i := by
  obtain ⟨hl, hraw⟩ := headerOf_eq_some.mp hh
  have hf : i < f.length := hi.trans_le hl
  simp [Header.byte, hraw, byteAt, hf]

/-- A range inside the header is the same range of the whole sequence. -/
theorem headerOf_range {off n : Nat} (hn : off + n ≤ 80) : h.range off n = (f.drop off).take n := by
  obtain ⟨-, hraw⟩ := headerOf_eq_some.mp hh
  rw [Header.range, hraw, List.drop_take, List.take_take, Nat.min_eq_left (by omega)]

theorem headerOf_bit (i j : Nat) (hi : i < 80) : (h.byte i hi).getLsbD j = bitOf (byteAt f i) j := by
  rw [headerOf_byte hh, getLsbD_eq_bitOf]

theorem headerOf_markerOk : h.markerOk = decide (f.take 12 = marker) := by
  have hread : memRead h.raw 0 12 = some (h.range 0 12) := if_pos (by rw [h.size]; decide)
  simp [Header.markerOk, hread, headerOf_range hh]

theorem headerOf_hdrSize : h.hdrSize = (byteAt f 12).toNat := by
  rw [Header.hdrSize, headerOf_byte hh, u8]

theorem headerOf_width (cfg : Config) : h.width cfg = widthOf cfg f := by
  rw [Header.width, WidthMap.apply, Header.cfgW, headerOf_bit hh, widthOf]

theorem headerOf_cfgByte : h.cfgByte = (byteAt f 13).toNat := by
  rw [Header.cfgByte, headerOf_byte hh, u8]

theorem headerOf_cfgRsv : h.cfgRsv = BitVec.ofNat 4 (byteAt f 13).toNat := by
  rw [Header.cfgRsv, headerOf_byte hh, extractLsb'_zero_eq_ofNat]

theorem headerOf_chMap : h.chMap = (byteAt f 14).toNat := by
  rw [Header.chMap, headerOf_byte hh, u8]

theorem headerOf_en : h.en = BitVec.ofNat 6 (byteAt f 14).toNat := by
  rw [Header.en, headerOf_byte hh, extractLsb'_zero_eq_ofNat]

/-- R115: the mask's six bits are the low bits of byte 14. -/
theorem headerOf_chEn (c : Channel) : chEn h.en c = enabledIn f c := by
  rw [chEn, Header.en, BitVec.getLsbD_extractLsb', Nat.zero_add, headerOf_bit hh, decide_eq_true c.isLt,
    Bool.true_and, enabledIn]

/-- R115: the mask has as many ones as channels are enabled. -/
theorem headerOf_enabledCount : h.enabledCount = (channelsOf f).length :=
  calc h.enabledCount
    _ = (List.finRange 6).countP (chEn h.en) := by
      rw [Header.enabledCount, popcount, ← List.map_coe_finRange_eq_range, List.countP_map]; rfl
    _ = (channelsOf f).length := by
      rw [funext (headerOf_chEn hh), List.countP_eq_length_filter, channelsOf]

theorem headerOf_blockSamples (cfg : Config) : h.blockSamples cfg = bsOf cfg f := by
  rw [Header.blockSamples, headerOf_byte hh, headerOf_byte hh]; rfl

theorem headerOf_sampleBytes : h.sampleBytes = sbOf f := by
  rw [Header.sampleBytes, headerOf_byte hh, u8, sbOf]

theorem headerOf_frameLen (cfg : Config) : h.frameLen cfg = 80 + bsOf cfg f * sbOf f := by
  rw [Header.frameLen, headerOf_blockSamples hh, headerOf_sampleBytes hh]

end Fields

/-! ### Accessors -/

/-- A view of at least 80 bytes shows a header. -/
theorem exists_header_of_view {v : View} {s : State} {f : Bytes} (hv : viewBytes v s = f) (hl : 80 ≤ f.length) :
    ∃ h, headerOf f = some h ∧ viewHeader v s = some h :=
  ⟨_, headerOf_of_le hl, hv ▸ headerOf_of_le hl⟩

/-- On a view that shows a header, an accessor answers its field of that header and leaves the rest alone. -/
theorem withHeader_of_view {v : View} {s : State} {h : Header} {field : Header → Ret} {r : Ret}
    (hv : viewHeader v s = some h) (hr : field h = r) : withHeader v s field = .next { s with ret := r } := by
  rw [withHeader, hv, ← hr]

/-- Settles O38: every raw range lies inside the header. -/
theorem rawRangeAccessors : Obligations.RawRangeAccessors := by
  intro v s f hf hl
  obtain ⟨h, hh, hv⟩ := exists_header_of_view hf hl
  have hrange {off n : Nat} (hn : off + n ≤ 80) : Ret.bytes (h.range off n) = .bytes ((f.drop off).take n) :=
    congrArg Ret.bytes (headerOf_range hh hn)
  refine ⟨?stime, ?misc, ?gps, ?posstr, ?tail⟩
  case stime => exact withHeader_of_view hv (hrange (by decide))
  case misc => exact withHeader_of_view hv (hrange (by decide))
  case gps => exact withHeader_of_view hv (hrange (by decide))
  case posstr => exact withHeader_of_view hv (hrange (by decide))
  case tail => exact withHeader_of_view hv (hrange (by decide))

/-- Settles O36: each accessor answers its field of the view's header, which is read off the view's bytes. -/
theorem flagAccessors : Obligations.FlagAccessors := by
  intro v s f hf hl
  obtain ⟨h, hh, hv⟩ := exists_header_of_view hf hl
  have hbit (j : Nat) : Ret.flag ((h.byte 13).getLsbD j) = .flag (bitOf (byteAt f 13) j) :=
    congrArg Ret.flag (headerOf_bit hh 13 j _)
  refine ⟨?marker, ?width, ?intoff, ?lowpwr, ?lowrate, fun c => ?chen⟩
  case marker => exact withHeader_of_view hv (congrArg Ret.flag (headerOf_markerOk hh))
  case width => exact withHeader_of_view hv (congrArg Ret.width (headerOf_width hh s.cfg))
  case intoff => exact withHeader_of_view hv (hbit 6)
  case lowpwr => exact withHeader_of_view hv (hbit 5)
  case lowrate => exact withHeader_of_view hv (hbit 4)
  case chen =>
    refine withHeader_of_view hv ?_
    rw [headerOf_chEn hh, headerOf_en hh, headerOf_enabledCount hh, enabledIn]

/-- Settles O37: each accessor answers its field of the view's header, which is read off the view's bytes. -/
theorem numberAccessors : Obligations.NumberAccessors := by
  intro v s f hf hl
  obtain ⟨h, hh, hv⟩ := exists_header_of_view hf hl
  refine ⟨?hdrsize, ?cfg, ?chmap, ?bsamples, ?sbytes, ?flen⟩
  case hdrsize =>
    refine withHeader_of_view hv ?_
    rw [Header.hdrSizeOk, headerOf_hdrSize hh, beq_eq_decide]
  case cfg =>
    refine withHeader_of_view hv ?_
    rw [headerOf_cfgByte hh, headerOf_cfgRsv hh]
  case chmap => exact withHeader_of_view hv (congrArg Ret.nat (headerOf_chMap hh))
  case bsamples => exact withHeader_of_view hv (congrArg Ret.nat (headerOf_blockSamples hh s.cfg))
  case sbytes => exact withHeader_of_view hv (congrArg Ret.nat (headerOf_sampleBytes hh))
  case flen => exact withHeader_of_view hv (congrArg Ret.nat (headerOf_frameLen hh s.cfg))

end Sys2Proof.Machine
end

section
/-! SUPPORT. The marker search (R154) and the trailing marker part (R157): what a search result says about the bytes, and
that no discard loses the start of a marker (R156 to R159). -/

namespace Sys2Proof.Machine

open Sys2Proof

/-! ### Occurrences of the marker -/

/-- All 12 marker bytes stand at offset `i`. -/
def MarkerAt (b : Bytes) (i : Nat) : Prop := (b.drop i).take 12 = marker

/-- A full match lies inside the buffer. -/
theorem add_le_of_markerAt {b : Bytes} {i : Nat} (h : MarkerAt b i) : i + 12 ≤ b.length := by
  have hlen := congrArg List.length h
  simp only [List.length_take, List.length_drop, show marker.length = 12 from rfl] at hlen
  omega

/-- Bytes that come later have no part in a full match. -/
theorem markerAt_append {b y : Bytes} {i : Nat} (h : i + 12 ≤ b.length) : MarkerAt (b ++ y) i ↔ MarkerAt b i := by
  rw [MarkerAt, MarkerAt, List.drop_append_of_le_length (by omega),
    List.take_append_of_le_length (by rw [List.length_drop]; omega)]

/-! ### The search -/

theorem findMarker_cons_of_not_markerAt {x : Byte} {b : Bytes} (h : ¬ MarkerAt (x :: b) 0) :
    findMarker (x :: b) = (findMarker b).map (· + 1) := by
  rw [findMarker_cons, if_neg (mt (isPrefixOf_marker (x :: b)).mp h)]

/-- Bytes at which no marker starts can be left out of the search. -/
theorem findMarker_eq_map_drop {b : Bytes} {n : Nat} (h : ∀ i < n, ¬ MarkerAt b i) :
    findMarker b = (findMarker (b.drop n)).map (· + n) := by
  induction n generalizing b with
  | zero => simp
  | succ n ih =>
    cases b with
    | nil => rfl
    | cons x b =>
      rw [findMarker_cons_of_not_markerAt (h 0 n.succ_pos), List.drop_succ_cons,
        ih fun i hi => h (i + 1) (Nat.succ_lt_succ hi), Option.map_map]
      rfl

theorem findMarker_eq_none_iff {b : Bytes} : findMarker b = none ↔ ∀ i, ¬ MarkerAt b i := by
  constructor
  · induction b with
    | nil => intro _ i h; exact absurd (add_le_of_markerAt h) (by simp)
    | cons x b ih =>
      intro h i
      have h0 : ¬ MarkerAt (x :: b) 0 := fun h0 =>
        nomatch h.symm.trans ((findMarker_eq_zero _).mpr h0)
      rw [findMarker_cons_of_not_markerAt h0, Option.map_eq_none_iff] at h
      cases i with
      | zero => exact h0
      | succ i => exact ih h i
  · intro h
    rw [findMarker_eq_map_drop (n := b.length) fun i _ => h i, List.drop_length]
    rfl

/-- R154: the search gives the least offset of a full match. -/
theorem findMarker_eq_some_iff {b : Bytes} {k : Nat} :
    findMarker b = some k ↔ MarkerAt b k ∧ ∀ i < k, ¬ MarkerAt b i := by
  constructor
  · induction b generalizing k with
    | nil => exact nofun
    | cons x b ih =>
      intro h
      by_cases h0 : MarkerAt (x :: b) 0
      · obtain rfl : 0 = k := Option.some.inj (((findMarker_eq_zero _).mpr h0).symm.trans h)
        exact ⟨h0, nofun⟩
      · rw [findMarker_cons_of_not_markerAt h0] at h
        obtain ⟨k, hk, rfl⟩ := Option.map_eq_some_iff.mp h
        obtain ⟨hat, hmin⟩ := ih hk
        refine ⟨hat, fun i hi => ?_⟩
        cases i with
        | zero => exact h0
        | succ i => exact hmin i (Nat.lt_of_succ_lt_succ hi)
  · rintro ⟨hat, hmin⟩
    rw [findMarker_eq_map_drop hmin, (findMarker_eq_zero _).mpr hat]
    simp

/-! ### The tail -/

/-- The last `j` bytes are the first `j` marker bytes. -/
def EndsWithMarkerPart (b : Bytes) (j : Nat) : Prop := j ≤ b.length ∧ b.drop (b.length - j) = marker.take j

/-- R83: no proper trailing part of a marker start is itself a marker start, so the marker cannot overlap itself. -/
theorem drop_take_marker_ne : ∀ j < 12, ∀ i < j, 0 < i → (marker.take j).drop (j - i) ≠ marker.take i := by
  decide

/-- At most one trailing part of 1 to 11 bytes is a marker start. -/
theorem endsWithMarkerPart_unique {b : Bytes} {i j : Nat} (hi : EndsWithMarkerPart b i) (hj : EndsWithMarkerPart b j)
    (h0 : 0 < i) (hij : i ≤ j) (h12 : j < 12) : i = j := by
  obtain ⟨-, hi⟩ := hi
  obtain ⟨hl, hj⟩ := hj
  by_contra hne
  refine drop_take_marker_ne j h12 i (by omega) h0 ?_
  rw [← hj, ← hi, List.drop_drop]
  congr 1
  omega

theorem endsWithMarkerPart_tailUpTo (m : Nat) (b : Bytes) : EndsWithMarkerPart b (tailUpTo m b) := by
  induction m with
  | zero => simp [EndsWithMarkerPart, tailUpTo]
  | succ m ih =>
    unfold tailUpTo
    split
    · assumption
    · exact ih

theorem le_tailUpTo {b : Bytes} {m j : Nat} (hjm : j ≤ m) (hj : EndsWithMarkerPart b j) : j ≤ tailUpTo m b := by
  induction m with
  | zero => omega
  | succ m ih =>
    unfold tailUpTo
    split
    · exact hjm
    · rename_i hno
      have : j ≠ m + 1 := fun h => hno (h ▸ hj)
      exact ih (by omega)

theorem endsWithMarkerPart_tailLen (b : Bytes) : EndsWithMarkerPart b (tailLen b) := endsWithMarkerPart_tailUpTo 11 b

theorem tailLen_le (b : Bytes) : tailLen b ≤ 11 := tailUpTo_le 11 b

/-- R157: the one trailing marker start there is, is the tail. -/
theorem eq_tailLen {b : Bytes} {j : Nat} (h0 : 0 < j) (h11 : j ≤ 11) (hj : EndsWithMarkerPart b j) : j = tailLen b :=
  endsWithMarkerPart_unique hj (endsWithMarkerPart_tailLen b) h0 (le_tailUpTo h11 hj) (Nat.lt_succ_of_le (tailLen_le b))

/-- Settles O27: the search for the tail runs from 11 down, and the marker cannot overlap itself. -/
theorem tailIsTheTrailingMarkerPart : Obligations.TailIsTheTrailingMarkerPart := by
  intro b
  obtain ⟨hle, hdrop⟩ := endsWithMarkerPart_tailLen b
  exact ⟨tailLen_le b, hle, hdrop, fun j h1 h11 hl hj => eq_tailLen h1 h11 ⟨hl, hj⟩⟩

/-! ### What a discard may drop -/

/-- Whatever bytes come later, no marker starts among the first `n` bytes. -/
def Droppable (b : Bytes) (n : Nat) : Prop := ∀ (y : Bytes), ∀ i < n, ¬ MarkerAt (b ++ y) i

/-- R156: no marker starts before the first one. -/
theorem droppable_of_findMarker {b : Bytes} {k : Nat} (h : findMarker b = some k) : Droppable b k := by
  obtain ⟨hat, hmin⟩ := findMarker_eq_some_iff.mp h
  intro y i hi
  have := add_le_of_markerAt hat
  rw [markerAt_append (by omega)]
  exact hmin i hi

/-- A marker that begins in the buffer and ends beyond it makes the buffer end with a marker start. -/
theorem endsWithMarkerPart_of_markerAt {b y : Bytes} {i : Nat} (hi : i ≤ b.length) (hl : b.length ≤ i + 12)
    (h : MarkerAt (b ++ y) i) : EndsWithMarkerPart b (b.length - i) := by
  refine ⟨Nat.sub_le _ _, ?_⟩
  rw [← h, List.take_take, Nat.min_eq_left (by omega), List.drop_append_of_le_length hi,
    List.take_append_of_le_length (by simp), Nat.sub_sub_self hi, List.take_of_length_le (by simp)]

/-- R158, R159: with no marker in the buffer only its tail can be the start of one. -/
theorem droppable_of_no_marker {b : Bytes} (h : findMarker b = none) : Droppable b (b.length - tailLen b) := by
  intro y i hi hat
  rcases Nat.lt_or_ge b.length (i + 12) with hl | hl
  · have htail := eq_tailLen (by omega) (by omega) (endsWithMarkerPart_of_markerAt (by omega) hl.le hat)
    omega
  · exact findMarker_eq_none_iff.mp h i ((markerAt_append hl).mp hat)

end Sys2Proof.Machine
end

section
/-! The micro-operations of the progress loop asked for alone (spec 41_frame_sync, R153 to R163). -/

namespace Sys2Proof.Machine

open Sys2Proof

/-- A micro-operation asked for alone runs where the table's predicate, seen at its loop position, holds. -/
theorem runSelected_of_enabled {p : LoopPos} {m : FsOp} {s : State} (h : m.Enabled { s with pos := p }) :
    runSelected p m.instr s = .next (m.apply s) :=
  runSelected_next.mpr ⟨m, select_of_enabled h, rfl, rfl⟩

/-- Settles O25: each wait is selected, and stopping the loop changes its position only. -/
theorem waitsChangeNothing : Obligations.WaitsChangeNothing :=
  ⟨fun _ hl => runSelected_of_enabled (m := .waitHdr) ⟨rfl, hl⟩,
    fun _ l hc hl => runSelected_of_enabled (m := .waitBody) ⟨rfl, l, hc, hl⟩⟩

/-- Settles O26: the answer is `findMarker`'s, which is the least full match. -/
theorem searchFindsTheFirstMarker : Obligations.SearchFindsTheFirstMarker := by
  intro s hl
  refine ⟨_, _, runSelected_of_enabled (m := .search) ⟨rfl, hl⟩, fun i hk => ?_, fun hk => ⟨if_pos hk, ?_⟩⟩
  · obtain ⟨hat, hmin⟩ := findMarker_eq_some_iff.mp hk
    exact ⟨add_le_of_markerAt hat, hat, hmin⟩
  · exact findMarker_eq_none_iff.mp hk

/-- Settles O29: each discard is selected, and it keeps what the search result says stands there. -/
theorem discardsWarnWithTheCount : Obligations.DiscardsWarnWithTheCount := by
  intro s hl
  refine ⟨fun k hk h0 => ?dropk, fun j hk hj h0 => ⟨?count, ?keeptail⟩, fun hk hj => ?flush⟩
  case dropk => exact runSelected_of_enabled (m := .dropK k) ⟨rfl, hl, hk, h0⟩
  case count =>
    have := tailLen_le s.buf
    omega
  case keeptail =>
    obtain ⟨-, htail⟩ := endsWithMarkerPart_tailLen s.buf
    rw [← hj, ← htail, hj]
    exact runSelected_of_enabled (m := .keepTail j) ⟨rfl, hl, hk, hj, h0⟩
  case flush =>
    rw [← List.drop_length (l := s.buf)]
    exact runSelected_of_enabled (m := .flush) ⟨rfl, hl, hk, hj⟩

/-- R118: the two fields of the length are 16 and 8 bits wide. -/
theorem bsOf_mul_sbOf_le (cfg : Config) (f : Bytes) : bsOf cfg f * sbOf f ≤ 65535 * 255 := by
  have hbs : bsOf cfg f ≤ 65535 := by
    have := (byteAt f 15).isLt
    have := (byteAt f 16).isLt
    unfold bsOf
    split <;> omega
  exact Nat.mul_le_mul hbs (Nat.le_of_lt_succ (byteAt f 17).isLt)

/-- FS.LEN asked for alone, with a validated header at offset 0. -/
theorem exec_fsLen {s : State} (hl : 80 ≤ s.buf.length) (hm : s.buf.take 12 = marker) :
    exec .fsLen s = .next (cacheLen (80 + bsOf s.cfg s.buf * sbOf s.buf) s) :=
  runSelected_of_enabled (m := .len _)
    ⟨rfl, (findMarker_eq_zero _).mpr hm, _, headerOf_of_le hl, headerOf_frameLen (headerOf_of_le hl) s.cfg⟩

/-- Settles O30: both are selected by the marker at offset 0; what FS.LEN caches is the header's frame length. -/
theorem lengthIsCachedFromTheHeader : Obligations.LengthIsCachedFromTheHeader := by
  intro s hl hm
  refine ⟨?sync0, fun hc => ?first, fun l hc => ?again, Nat.le_add_right _ _, ?bound⟩
  case sync0 => exact runSelected_of_enabled (m := .sync0) ⟨rfl, hl, (findMarker_eq_zero _).mpr hm⟩
  case first => rw [exec_fsLen hl hm, cacheLen_of_none _ _ hc]
  case again => rw [exec_fsLen hl hm, cacheLen_of_some _ l _ hc]
  case bound => exact Nat.add_le_add_left (bsOf_mul_sbOf_le s.cfg s.buf) 80

/-! ### The event of a transcode -/

/-- The one event of a transcode at sequence index `n` (R190, R222, R266). -/
def transcodeEvent (cfg : Config) (n : Nat) (f : Bytes) : Event :=
  match checkFrame cfg f with
  | .error c => .err c.cls c
  | .ok h => .samples (sampleRecord cfg h n (lanesOf (demuxFrame cfg (startRegs cfg f h))))

/-- The sequence index after a transcode at index `n` (R225). -/
def transcodeFseq (cfg : Config) (n : Nat) (f : Bytes) : Nat :=
  match checkFrame cfg f with
  | .error _ => n
  | .ok _ => n + 1

theorem transcode_out (f : Bytes) (s : State) :
    (transcode f s).out = s.out ++ [transcodeEvent s.cfg s.fseq f] := by
  unfold transcodeEvent
  rcases transcode_cases f s with ⟨c, hc, ht⟩ | ⟨h, hc, ht⟩ <;> rw [ht, hc] <;> rfl

theorem transcode_fseq (f : Bytes) (s : State) : (transcode f s).fseq = transcodeFseq s.cfg s.fseq f := by
  unfold transcodeFseq
  rcases transcode_cases f s with ⟨c, hc, ht⟩ | ⟨h, hc, ht⟩ <;> rw [ht, hc] <;> rfl

@[simp] theorem isWarn_warn (k : WarnKind) (c : Nat) : (Event.warn k c).isWarn = true := rfl

@[simp] theorem isWarn_frame (f : Bytes) : (Event.frame f).isWarn = false := rfl

@[simp] theorem frame?_frame (f : Bytes) : (Event.frame f).frame? = some f := rfl

/-- A transcode emits no warning. -/
@[simp] theorem transcodeEvent_isWarn (cfg : Config) (n : Nat) (f : Bytes) : (transcodeEvent cfg n f).isWarn = false := by
  unfold transcodeEvent; split <;> rfl

/-- A transcode emits no frame. -/
@[simp] theorem transcodeEvent_frame? (cfg : Config) (n : Nat) (f : Bytes) : (transcodeEvent cfg n f).frame? = none := by
  unfold transcodeEvent; split <;> rfl

theorem emitFrame_out (l : Nat) (s : State) :
    (emitFrame l s).out = s.out ++ [.frame (s.buf.take l), transcodeEvent s.cfg s.fseq (s.buf.take l)] := by
  simp [emitFrame, transcode_out]

theorem emitFrame_fseq (l : Nat) (s : State) :
    (emitFrame l s).fseq = transcodeFseq s.cfg s.fseq (s.buf.take l) := by
  simp [emitFrame, transcode_fseq]

/-- Settles O31: FS.EMIT is the transcode of the cut frame at the state without it; a transcode emits one event. -/
theorem emitCutsAndTranscodes : Obligations.EmitCutsAndTranscodes := by
  intro s l hc hl
  refine ⟨_, transcodeEvent s.cfg s.fseq (s.buf.take l), rfl,
    runSelected_of_enabled (m := .emit l) ⟨rfl, hc, hl⟩, ?_⟩
  simp [transcode_out]

end Sys2Proof.Machine
end

section
/-! SUPPORT. The frame synchronizer as a whole: the part of the invariant its loop keeps (R24 to R26), what one
micro-operation does to the stream of bytes and events (R153 to R163), and what is kept along a list of PUSHes. -/

namespace Sys2Proof.Machine

open Sys2Proof

/-! ### Declared lengths -/

/-- The bytes begin with a whole validated header, and it declares a frame of `l` bytes (R25, R118). -/
def Declares (cfg : Config) (b : Bytes) (l : Nat) : Prop :=
  ∃ h, headerOf b = some h ∧ b.take 12 = marker ∧ l = h.frameLen cfg

/-- R164: a valid frame declares its own length. -/
theorem validFrame_iff_declares {cfg : Config} {f : Bytes} : ValidFrame cfg f ↔ Declares cfg f f.length := Iff.rfl

theorem headerOf_append {b : Bytes} (y : Bytes) (h : 80 ≤ b.length) : headerOf (b ++ y) = headerOf b := by
  rw [headerOf_of_le h, headerOf_eq_some, List.length_append, List.take_append_of_le_length h]
  exact ⟨by omega, rfl⟩

/-- What the first 80 bytes declare does not depend on the bytes after them. -/
theorem declares_append_iff {cfg : Config} {b : Bytes} {l : Nat} (y : Bytes) (h : 80 ≤ b.length) :
    Declares cfg (b ++ y) l ↔ Declares cfg b l := by
  rw [Declares, Declares, headerOf_append y h, List.take_append_of_le_length (by omega)]

namespace Declares

variable {cfg : Config} {b : Bytes} {l : Nat}

theorem header_le (h : Declares cfg b l) : 80 ≤ b.length := by
  obtain ⟨_, hh, -⟩ := h
  exact (headerOf_eq_some.mp hh).1

theorem findMarker_eq (h : Declares cfg b l) : findMarker b = some 0 := by
  obtain ⟨_, -, hm, -⟩ := h
  exact (findMarker_eq_zero _).mpr hm

theorem append (h : Declares cfg b l) (y : Bytes) : Declares cfg (b ++ y) l := (declares_append_iff y h.header_le).mpr h

theorem unique {l' : Nat} (h : Declares cfg b l) (h' : Declares cfg b l') : l = l' := by
  obtain ⟨x, hx, -, rfl⟩ := h
  obtain ⟨x', hx', -, rfl⟩ := h'
  rw [Option.some.inj (hx.symm.trans hx')]

end Declares

/-! ### What every micro-operation does to the stream -/

theorem FsOp.apply_cfg (m : FsOp) (s : State) : (m.apply s).cfg = s.cfg := by
  cases m <;> simp [FsOp.apply]

theorem FsOp.apply_chunkOpen (m : FsOp) (s : State) : (m.apply s).chunkOpen = s.chunkOpen := by
  cases m <;> simp [FsOp.apply]

/-- What a step of the loop does to the bytes, the events and FSEQ: nothing, or one discard, or one frame. -/
inductive StreamEffect (s t : State) : Prop
  /-- R153, R154, R155, R161, R162 -/
  | silent (hbuf : t.buf = s.buf) (hout : t.out = s.out) (hfseq : t.fseq = s.fseq)
  /-- R156, R158, R159 -/
  | discard (n : Nat) (k : WarnKind) (c : Nat) (h80 : 80 ≤ s.buf.length) (hm : findMarker s.buf ≠ some 0)
      (hn : n ≤ s.buf.length) (hdrop : Droppable s.buf n) (hbuf : t.buf = s.buf.drop n)
      (hout : t.out = s.out ++ [.warn k c]) (hfseq : t.fseq = s.fseq)
  /-- R163 -/
  | cut (l : Nat) (hdecl : Declares s.cfg s.buf l) (hl : l ≤ s.buf.length) (hbuf : t.buf = s.buf.drop l)
      (hout : t.out = s.out ++ [.frame (s.buf.take l), transcodeEvent s.cfg s.fseq (s.buf.take l)])
      (hfseq : t.fseq = transcodeFseq s.cfg s.fseq (s.buf.take l))

/-- The part of `Inv` about the synchronizer's own elements (R24, R25, R26). -/
structure SyncOk (s : State) : Prop where
  cachedOk : ∀ l, s.cached = some l → Declares s.cfg s.buf l
  stOk : s.st = .accumulatingBody ↔ s.lv = true
  quiet : s.pos = .idle → s.chunkOpen = false → Quiescent s

theorem Inv.syncOk {s : State} (h : Inv s) : SyncOk s := ⟨h.cachedOk, h.stOk, h.quiet⟩

namespace SyncOk

variable {s : State}

/-- A cached length means a whole header with the marker first (R25). -/
theorem cached_eq_none (h : SyncOk s) (hno : s.buf.length < 80 ∨ findMarker s.buf ≠ some 0) : s.cached = none := by
  cases hc : s.cached with
  | none => rfl
  | some l =>
    have hd := h.cachedOk l hc
    rcases hno with hl | hm
    · exact absurd hd.header_le (by omega)
    · exact absurd hd.findMarker_eq hm

theorem st_eq (h : SyncOk s) (hc : s.cached = none) : s.st = .accumulatingHeader := by
  have hst := h.stOk
  cases hs : s.st with
  | accumulatingHeader => rfl
  | accumulatingBody => simp [hs, State.lv, hc] at hst

/-- With no cached length, R24 asks for AccumulatingHeader and R26 for a short buffer at rest; R25 asks for nothing. -/
theorem of_not_cached (hc : s.cached = none) (hst : s.st = .accumulatingHeader)
    (hq : s.pos = .idle → s.buf.length < 80) : SyncOk s where
  cachedOk l hl := nomatch hc.symm.trans hl
  stOk := by simp [hst, State.lv, hc]
  quiet hp _ := .inl ⟨hc, hq hp⟩

theorem with_ret (h : SyncOk s) (r : Ret) : SyncOk { s with ret := r } := ⟨h.cachedOk, h.stOk, h.quiet⟩

/-- Every selected micro-operation of the loop keeps R24, R25 and R26. -/
theorem apply {m : FsOp} (h : SyncOk s) (he : m.Enabled s) : SyncOk (m.apply s) := by
  cases m with
  | waitHdr => exact ⟨h.cachedOk, h.stOk, fun _ _ => .inl ⟨h.cached_eq_none (.inl he.2), he.2⟩⟩
  | search | sync0 => exact ⟨h.cachedOk, h.stOk, nofun⟩
  | dropK k =>
    obtain ⟨-, -, hk, h0⟩ := he
    have hc := h.cached_eq_none (.inr (by simp [hk, h0.ne']))
    exact of_not_cached hc (h.st_eq hc) nofun
  | keepTail j =>
    obtain ⟨-, -, hk, rfl, -⟩ := he
    have hc := h.cached_eq_none (.inr (by simp [hk]))
    refine of_not_cached hc (h.st_eq hc) fun _ => ?_
    have := tailLen_le s.buf
    simp only [FsOp.apply, keepMarkerTail_buf, List.length_drop]
    omega
  | flush =>
    obtain ⟨-, -, hk, -⟩ := he
    have hc := h.cached_eq_none (.inr (by simp [hk]))
    exact of_not_cached hc (h.st_eq hc) nofun
  | len n =>
    obtain ⟨-, hm, x, hx, rfl⟩ := he
    cases hc : s.cached with
    | none =>
      rw [FsOp.apply, cacheLen_of_none _ _ hc]
      refine ⟨fun l hl => ?_, by simp [State.lv], nofun⟩
      obtain rfl := Option.some.inj hl
      exact ⟨x, hx, (findMarker_eq_zero _).mp hm, rfl⟩
    | some l =>
      rw [FsOp.apply, cacheLen_of_some _ l _ hc]
      exact ⟨h.cachedOk, h.stOk, nofun⟩
  | waitBody =>
    obtain ⟨-, l, hc, hl⟩ := he
    exact ⟨h.cachedOk, h.stOk, fun _ _ => .inr ⟨l, hc, (h.cachedOk l hc).header_le, hl⟩⟩
  | emit l => exact of_not_cached (emitFrame_cached l s) (emitFrame_st l s) (by simp [FsOp.apply])

/-- What the selected micro-operation does to the stream. -/
theorem streamEffect {m : FsOp} (h : SyncOk s) (he : m.Enabled s) : StreamEffect s (m.apply s) := by
  cases m with
  | waitHdr | search | sync0 | waitBody => exact .silent rfl rfl rfl
  | len n => exact .silent (cacheLen_buf n s) (cacheLen_out n s) (cacheLen_fseq n s)
  | dropK k =>
    obtain ⟨-, hl, hk, h0⟩ := he
    have := add_le_of_markerAt (findMarker_eq_some_iff.mp hk).1
    exact .discard k _ _ hl (by simp [hk, h0.ne']) (by omega) (droppable_of_findMarker hk) rfl rfl rfl
  | keepTail j =>
    obtain ⟨-, hl, hk, rfl, -⟩ := he
    exact .discard _ _ _ hl (by simp [hk]) (Nat.sub_le _ _) (droppable_of_no_marker hk) rfl rfl rfl
  | flush =>
    obtain ⟨-, hl, hk, hj⟩ := he
    have hdrop := droppable_of_no_marker hk
    rw [hj, Nat.sub_zero] at hdrop
    exact .discard _ _ _ hl (by simp [hk]) le_rfl hdrop rfl rfl rfl
  | emit l =>
    obtain ⟨-, hc, hl⟩ := he
    exact .cut l (h.cachedOk l hc) hl (emitFrame_buf l s) (emitFrame_out l s) (emitFrame_fseq l s)

end SyncOk

/-! ### What a list of PUSHes keeps -/

/-- The state PUSH starts the loop in: the chunk appended and closed, before test (a) (R150). -/
def startLoop (chunk : Bytes) (s : State) : State :=
  { s with buf := s.buf ++ chunk, chunkOpen := false, pos := .testA }

theorem SyncOk.start {s : State} (h : SyncOk s) (chunk : Bytes) : SyncOk (startLoop chunk s) :=
  ⟨fun l hl => (h.cachedOk l hl).append chunk, h.stOk, nofun⟩

/-- A property of a state and the bytes still to be pushed that an append, the loop and a returned value keep. -/
structure KeptByPush (P : Bytes → State → Prop) : Prop where
  start : ∀ {chunk y s}, P (chunk ++ y) s → P y (startLoop chunk s)
  apply : ∀ {y s m}, P y s → FsOp.Enabled s m → P y (m.apply s)
  ret : ∀ {y s} r, P y s → P y { s with ret := r }

namespace KeptByPush

variable {P : Bytes → State → Prop} (hP : KeptByPush P)
include hP

/-- A chunk that fits is taken in; the loop comes to rest, the chunk is closed, and the property is kept. -/
theorem push_of_fits {chunk y : Bytes} {s : State} (h : P (chunk ++ y) s) (hne : chunk ≠ [])
    (hfit : Memory.fits s.cfg.bufCap s.buf.length chunk.length = true) :
    ∃ t, exec (.push chunk) s = .next t ∧ P y t ∧ t.pos = .idle ∧ t.chunkOpen = false := by
  obtain ⟨hp, ho⟩ := progress_keeps (P := fun u => P y u ∧ u.chunkOpen = false)
    (fun u m ⟨hu, ho⟩ hs => ⟨hP.apply hu (enabled_of_select hs), (m.apply_chunkOpen u).trans ho⟩)
    (loopFuel (s.buf ++ chunk).length) (startLoop chunk s) ⟨hP.start h, rfl⟩
  exact ⟨_, exec_push_of_fits hne hfit, hP.ret _ hp, progress_loopFuel_pos (s := startLoop chunk s) rfl, ho⟩

theorem push {chunk y : Bytes} {s t : State} (h : P (chunk ++ y) s) (hpos : s.pos = .idle)
    (ht : exec (.push chunk) s = .next t) :
    P y t ∧ t.pos = .idle ∧ (chunk ≠ [] ∨ s.chunkOpen = false → t.chunkOpen = false) := by
  by_cases hne : chunk = []
  · subst hne
    obtain rfl := Host.Outcome.next.inj ht
    exact ⟨hP.ret _ h, hpos, by simp⟩
  · by_cases hfit : Memory.fits s.cfg.bufCap s.buf.length chunk.length = true
    · obtain ⟨u, hu, hp, hpos', ho⟩ := hP.push_of_fits h hne hfit
      obtain rfl := Host.Outcome.next.inj (hu.symm.trans ht)
      exact ⟨hp, hpos', fun _ => ho⟩
    · rw [exec_push_of_ne_nil hne, if_neg hfit] at ht
      cases ht

/-- A run of PUSHes that completes keeps the property and ends at rest, with no chunk open once a byte was pushed. -/
theorem run {chunks : List Bytes} {s t : State} (h : P chunks.flatten s) (hpos : s.pos = .idle)
    (ht : runInstrs (chunks.map Instr.push) s = .next t) :
    P [] t ∧ t.pos = .idle ∧ (chunks.flatten ≠ [] ∨ s.chunkOpen = false → t.chunkOpen = false) := by
  induction chunks generalizing s with
  | nil =>
    obtain rfl := Host.Outcome.next.inj ht
    exact ⟨h, hpos, by simp⟩
  | cons c cs ih =>
    simp only [List.map_cons, runInstrs] at ht
    cases hc : exec (.push c) s with
    | next u =>
      rw [hc] at ht
      obtain ⟨hu, hposu, hou⟩ := hP.push h hpos hc
      obtain ⟨hp, hpost, hot⟩ := ih hu hposu ht
      refine ⟨hp, hpost, fun hor => hot ?_⟩
      by_cases hcs : cs.flatten = []
      · exact .inr (hou (by simpa [hcs] using hor))
      · exact .inl hcs
    | fault f => rw [hc] at ht; cases ht
    | refused r => rw [hc] at ht; cases ht

/-- A run of PUSHes completes where the property leaves room for each chunk. -/
theorem exists_run
    (hroom : ∀ {chunk y s}, P (chunk ++ y) s → Memory.fits s.cfg.bufCap s.buf.length chunk.length = true)
    {chunks : List Bytes} {s : State} (h : P chunks.flatten s) (hpos : s.pos = .idle) :
    ∃ t, runInstrs (chunks.map Instr.push) s = .next t := by
  induction chunks generalizing s with
  | nil => exact ⟨s, rfl⟩
  | cons c cs ih =>
    have hc : ∃ u, exec (.push c) s = .next u := by
      by_cases hne : c = []
      · exact ⟨_, hne ▸ exec_push_nil s⟩
      · exact ⟨_, exec_push_of_fits hne (hroom h)⟩
    obtain ⟨u, hu⟩ := hc
    obtain ⟨hPu, hposu, -⟩ := hP.push h hpos hu
    simpa only [List.map_cons, runInstrs, hu] using ih hPu hposu

end KeptByPush

/-- Pushing no byte changes nothing but the returned value. -/
theorem runInstrs_push_of_flatten_eq_nil {chunks : List Bytes} {s t : State} (h : chunks.flatten = [])
    (ht : runInstrs (chunks.map Instr.push) s = .next t) : ∃ r, t = { s with ret := r } := by
  induction chunks generalizing s with
  | nil => exact ⟨s.ret, (Host.Outcome.next.inj ht).symm⟩
  | cons c cs ih =>
    obtain ⟨rfl, hcs⟩ := List.append_eq_nil_iff.mp h
    obtain ⟨r, rfl⟩ := ih (s := { s with ret := .consumed 0 }) hcs ht
    exact ⟨r, rfl⟩

end Sys2Proof.Machine
end

section
/-! R165: the frames, records and errors of a stream do not depend on the chunking.  A reference that knows no chunks reads
the frames off the whole stream; every run emits what the reference says. -/

namespace Sys2Proof.Machine

open Sys2Proof

/-! ### The reference -/

/-- The frame that the bytes begin with, and the bytes after it; none when it is not complete. -/
def frontFrame (cfg : Config) (b : Bytes) : Option (Bytes × Bytes) :=
  (headerOf b).bind fun h =>
    if h.frameLen cfg ≤ b.length then some (b.take (h.frameLen cfg), b.drop (h.frameLen cfg)) else none

/-- The frame at the first marker of a stream, and the bytes after it. -/
def nextFrame (cfg : Config) (b : Bytes) : Option (Bytes × Bytes) :=
  (findMarker b).bind fun k => frontFrame cfg (b.drop k)

/-- Read off a whole stream `b`, from sequence index `n`: its frames, each with the event of its transcode, and the index
reached. -/
inductive Reframes (cfg : Config) : Nat → Bytes → List Event → Nat → Prop
  | rest {n b} (h : nextFrame cfg b = none) : Reframes cfg n b [] n
  | cut {n b f b' es m} (h : nextFrame cfg b = some (f, b')) (tail : Reframes cfg (transcodeFseq cfg n f) b' es m) :
      Reframes cfg n b (.frame f :: transcodeEvent cfg n f :: es) m

theorem Reframes.unique {cfg : Config} {n m m' : Nat} {b : Bytes} {es es' : List Event}
    (h : Reframes cfg n b es m) (h' : Reframes cfg n b es' m') : es = es' ∧ m = m' := by
  induction h generalizing es' with
  | rest hn =>
    cases h' with
    | rest => exact ⟨rfl, rfl⟩
    | cut hn' => cases hn.symm.trans hn'
  | cut hn _ ih =>
    cases h' with
    | rest hn' => cases hn.symm.trans hn'
    | cut hn' tail =>
      cases hn.symm.trans hn'
      obtain ⟨rfl, rfl⟩ := ih tail
      exact ⟨rfl, rfl⟩

/-- Only the next frame matters, not the bytes before it. -/
theorem Reframes.congr {cfg : Config} {n m : Nat} {b b' : Bytes} {es : List Event}
    (hb : nextFrame cfg b' = nextFrame cfg b) (h : Reframes cfg n b es m) : Reframes cfg n b' es m := by
  cases h with
  | rest hn => exact .rest (hb.trans hn)
  | cut hn tail => exact .cut (hb.trans hn) tail

/-! ### The loop against the reference -/

theorem nextFrame_drop {cfg : Config} {b : Bytes} {n : Nat} (h : ∀ i < n, ¬ MarkerAt b i) :
    nextFrame cfg b = nextFrame cfg (b.drop n) := by
  rw [nextFrame, nextFrame, findMarker_eq_map_drop h, Option.bind_map]
  simp only [Function.comp_def, List.drop_drop, Nat.add_comm]

/-- A discard does not change the next frame, whatever bytes come later. -/
theorem nextFrame_of_droppable {cfg : Config} {b : Bytes} {n : Nat} (h : Droppable b n) (hn : n ≤ b.length)
    (y : Bytes) :
    nextFrame cfg (b ++ y) = nextFrame cfg (b.drop n ++ y) := by
  rw [nextFrame_drop (h y), List.drop_append_of_le_length hn]

theorem nextFrame_of_declares {cfg : Config} {b : Bytes} {l : Nat} (h : Declares cfg b l) :
    nextFrame cfg b = if l ≤ b.length then some (b.take l, b.drop l) else none := by
  rw [nextFrame, h.findMarker_eq]
  obtain ⟨x, hx, -, rfl⟩ := h
  exact congrArg (Option.bind · _) hx

theorem nextFrame_of_short {cfg : Config} {b : Bytes} (h : b.length < 80) : nextFrame cfg b = none := by
  rw [nextFrame, Option.bind_eq_none_iff]
  intro k _
  rw [frontFrame, headerOf_eq_none.mpr (by rw [List.length_drop]; omega)]
  rfl

/-- R26: at rest no complete frame waits in the buffer. -/
theorem SyncOk.nextFrame_eq_none {s : State} (h : SyncOk s) (hp : s.pos = .idle) (ho : s.chunkOpen = false) :
    nextFrame s.cfg s.buf = none := by
  rcases h.quiet hp ho with ⟨-, hl⟩ | ⟨l, hc, -, hl⟩
  · exact nextFrame_of_short hl
  · rw [nextFrame_of_declares (h.cachedOk l hc), if_neg (by omega)]

/-- The run from `s₀` over a stream has come to `s`, with the bytes `y` still to be pushed: whatever the reference reads
off the buffer and `y`, it reads off the whole stream after the events emitted so far, warnings left out. -/
structure Delivered (s₀ : State) (stream : Bytes) (y : Bytes) (s : State) : Prop where
  sync : SyncOk s
  cfg_eq : s.cfg = s₀.cfg
  events : ∃ new, s.out = s₀.out ++ new ∧ ∀ es n, Reframes s₀.cfg s.fseq (s.buf ++ y) es n →
    Reframes s₀.cfg s₀.fseq stream (new.filter (fun e => !e.isWarn) ++ es) n

theorem Delivered.refl {s : State} (h : SyncOk s) (y : Bytes) : Delivered s (s.buf ++ y) y s :=
  ⟨h, rfl, [], by simp, fun _ _ hr => hr⟩

theorem Delivered.apply {s₀ s : State} {stream y : Bytes} {m : FsOp} (h : Delivered s₀ stream y s)
    (he : m.Enabled s) : Delivered s₀ stream y (m.apply s) := by
  obtain ⟨hsync, hcfg, new, hnew, hrun⟩ := h
  refine ⟨hsync.apply he, (m.apply_cfg s).trans hcfg, ?_⟩
  cases hsync.streamEffect he with
  | silent hbuf hout hfseq => exact ⟨new, by rw [hout, hnew], by rwa [hbuf, hfseq]⟩
  | discard n k c h80 hm hn hdrop hbuf hout hfseq =>
    refine ⟨new ++ [.warn k c], by rw [hout, hnew, List.append_assoc], fun es n' hr => ?_⟩
    rw [hbuf, hfseq] at hr
    simpa using hrun es n' (hr.congr (nextFrame_of_droppable hdrop hn y))
  | cut l hdecl hl hbuf hout hfseq =>
    refine ⟨new ++ [_, _], by rw [hout, hnew, List.append_assoc], fun es n hr => ?_⟩
    have hnext : nextFrame s.cfg (s.buf ++ y) = some (s.buf.take l, s.buf.drop l ++ y) := by
      rw [nextFrame_of_declares (hdecl.append y), if_pos (by rw [List.length_append]; omega),
        List.take_append_of_le_length hl, List.drop_append_of_le_length hl]
    rw [hbuf, hfseq] at hr
    rw [hcfg] at hnext hr ⊢
    simpa using hrun _ n (.cut hnext hr)

theorem delivered_keptByPush (s₀ : State) (stream : Bytes) : KeptByPush (Delivered s₀ stream) where
  start := fun {chunk _ _} ⟨hsync, hcfg, new, hnew, hrun⟩ =>
    ⟨hsync.start chunk, hcfg, new, hnew, by simpa only [startLoop, List.append_assoc] using hrun⟩
  apply := Delivered.apply
  ret := fun r ⟨hsync, hcfg, hevents⟩ => ⟨hsync.with_ret r, hcfg, hevents⟩

/-- A run of PUSHes emits what the reference reads off the whole stream, warnings left out. -/
theorem reframes_of_run {s t : State} {xs : List Bytes} {es : List Event} (h : SyncOk s) (hp : s.pos = .idle)
    (hne : xs.flatten ≠ []) (ht : runInstrs (xs.map Instr.push) s = .next t) (hout : t.out = s.out ++ es) :
    Reframes s.cfg s.fseq (s.buf ++ xs.flatten) (es.filter fun e => !e.isWarn) t.fseq := by
  obtain ⟨⟨hsync, hcfg, new, hnew, hrun⟩, hpos, hopen⟩ :=
    (delivered_keptByPush s (s.buf ++ xs.flatten)).run (Delivered.refl h _) hp ht
  obtain rfl : es = new := List.append_cancel_left (hout.symm.trans hnew)
  have hrest : nextFrame s.cfg (t.buf ++ []) = none := by
    rw [List.append_nil, ← hcfg]
    exact hsync.nextFrame_eq_none hpos (hopen (.inl hne))
  simpa using hrun [] t.fseq (.rest hrest)

/-- Settles O35: both runs emit what the reference reads off the one stream; where no byte is pushed nothing happens. -/
theorem framesDoNotDependOnChunking : Obligations.FramesDoNotDependOnChunking := by
  intro s t u xs ys es fs hinv hp hxy ht hu hes hfs
  by_cases hne : xs.flatten = []
  · obtain ⟨r, rfl⟩ := runInstrs_push_of_flatten_eq_nil hne ht
    obtain ⟨r', rfl⟩ := runInstrs_push_of_flatten_eq_nil (hxy ▸ hne) hu
    exact ⟨congrArg _ (List.append_cancel_left (hes.symm.trans hfs)), rfl⟩
  · have hxs := reframes_of_run hinv.syncOk hp hne ht hes
    have hys := reframes_of_run hinv.syncOk hp (hxy ▸ hne) hu hfs
    rw [hxy] at hxs
    exact hxs.unique hys

end Sys2Proof.Machine
end

section
/-! R164: valid frames cut into chunks in any way come out as exactly those frames. -/

namespace Sys2Proof.Machine

open Sys2Proof

/-- The run from `s₀` over the frames `fs` has come to `s`, with the bytes `y` still to be pushed: the frames emitted are
the first of `fs`, with no warning between them, and the buffer and `y` are the frames that remain. -/
structure Reassembling (s₀ : State) (fs : List Bytes) (y : Bytes) (s : State) : Prop where
  sync : SyncOk s
  cfg_eq : s.cfg = s₀.cfg
  progress : ∃ new rest, s.out = s₀.out ++ new ∧ (∀ e ∈ new, e.isWarn = false) ∧
    new.filterMap Event.frame? ++ rest = fs ∧ s.buf ++ y = rest.flatten

section

variable {s₀ : State} {fs : List Bytes} (hvalid : ∀ f ∈ fs, ValidFrame s₀.cfg f)

theorem Reassembling.refl {s : State} {y : Bytes} (h : SyncOk s) (hb : s.buf = []) (hy : y = fs.flatten) :
    Reassembling s fs y s :=
  ⟨h, rfl, [], fs, by simp, nofun, rfl, by rw [hb, hy, List.nil_append]⟩

/-- R72: what is buffered and still to come is no more than the whole stream, so it fits where the stream does. -/
theorem Reassembling.fits {s : State} {chunk y : Bytes} (h : Reassembling s₀ fs (chunk ++ y) s)
    (hcap : ∀ c, s₀.cfg.bufCap = some c → fs.flatten.length ≤ c) :
    Memory.fits s.cfg.bufCap s.buf.length chunk.length = true := by
  obtain ⟨-, hcfg, new, rest, -, -, rfl, hrest⟩ := h
  rw [fits_iff, hcfg]
  intro c hc
  have hlen := congrArg List.length hrest
  have hle := hcap c hc
  rw [List.flatten_append, List.length_append] at hle
  simp only [List.length_append] at hlen
  omega

/-- With a whole header in the buffer, the first remaining frame starts there and declares its own length. -/
theorem exists_front_frame {cfg : Config} {b y : Bytes} {rest : List Bytes} (hrest : b ++ y = rest.flatten)
    (hv : ∀ f ∈ rest, ValidFrame cfg f) (h80 : 80 ≤ b.length) :
    ∃ f rest', rest = f :: rest' ∧ Declares cfg b f.length := by
  cases rest with
  | nil =>
    obtain ⟨rfl, -⟩ := List.append_eq_nil_iff.mp hrest
    cases h80
  | cons f rest' =>
    refine ⟨f, rest', rfl, (declares_append_iff y h80).mp ?_⟩
    rw [hrest, List.flatten_cons]
    exact (validFrame_iff_declares.mp (hv f List.mem_cons_self)).append _

/-- R26: at rest, with nothing to come, no frame remains. -/
theorem remaining_eq_nil {s : State} {rest : List Bytes} (hsync : SyncOk s)
    (hv : ∀ f ∈ rest, ValidFrame s.cfg f) (hrest : s.buf = rest.flatten) (hp : s.pos = .idle)
    (ho : s.chunkOpen = false) : rest = [] := by
  cases rest with
  | nil => rfl
  | cons f rest' =>
    have hd : Declares s.cfg s.buf f.length := by
      rw [hrest, List.flatten_cons]
      exact (validFrame_iff_declares.mp (hv f List.mem_cons_self)).append _
    have hnone := hsync.nextFrame_eq_none hp ho
    rw [nextFrame_of_declares hd, if_pos (by rw [hrest, List.flatten_cons, List.length_append]; omega)] at hnone
    cases hnone

include hvalid

theorem Reassembling.apply {s : State} {y : Bytes} {m : FsOp} (h : Reassembling s₀ fs y s) (he : m.Enabled s) :
    Reassembling s₀ fs y (m.apply s) := by
  obtain ⟨hsync, hcfg, new, rest, hnew, hwarn, hfs, hrest⟩ := h
  refine ⟨hsync.apply he, (m.apply_cfg s).trans hcfg, ?_⟩
  have hv : ∀ f ∈ rest, ValidFrame s.cfg f := fun f hf => hcfg ▸ hvalid f (hfs ▸ List.mem_append_right _ hf)
  cases hsync.streamEffect he with
  | silent hbuf hout hfseq => exact ⟨new, rest, by rw [hout, hnew], hwarn, hfs, by rw [hbuf, hrest]⟩
  | discard n k c h80 hm hn hdrop hbuf hout hfseq =>
    obtain ⟨f, rest', -, hdecl⟩ := exists_front_frame hrest hv h80
    exact absurd hdecl.findMarker_eq hm
  | cut l hdecl hl hbuf hout hfseq =>
    obtain ⟨f, rest', rfl, hdecl'⟩ := exists_front_frame hrest hv hdecl.header_le
    obtain rfl := hdecl.unique hdecl'
    have htake : s.buf.take f.length = f := by
      rw [← List.take_append_of_le_length (l₂ := y) hl, hrest, List.flatten_cons, List.take_left]
    have hdrop : s.buf.drop f.length ++ y = rest'.flatten := by
      rw [← List.drop_append_of_le_length hl, hrest, List.flatten_cons, List.drop_left]
    refine ⟨new ++ [_, _], rest', by rw [hout, hnew, List.append_assoc], ?_, ?_, by rw [hbuf, hdrop]⟩
    · simpa [or_imp, forall_and] using hwarn
    · simpa [htake] using hfs

theorem reassembling_keptByPush : KeptByPush (Reassembling s₀ fs) where
  start := fun {chunk _ _} ⟨hsync, hcfg, new, rest, hnew, hwarn, hfs, hrest⟩ =>
    ⟨hsync.start chunk, hcfg, new, rest, hnew, hwarn, hfs, (List.append_assoc _ _ _).trans hrest⟩
  apply := Reassembling.apply hvalid
  ret := fun r ⟨hsync, hcfg, hprogress⟩ => ⟨hsync.with_ret r, hcfg, hprogress⟩

end

/-- Settles O34: no discard is ever selected, each cut takes the first remaining frame, and at rest none remains. -/
theorem losslessReframing : Obligations.LosslessReframing := by
  intro s fs chunks hb hc hst hp ho hvalid hflat hcap
  have hkept := reassembling_keptByPush hvalid
  have hstart : Reassembling s fs chunks.flatten s :=
    .refl (.of_not_cached hc hst fun _ => by simp [hb]) hb hflat
  obtain ⟨t, ht⟩ := hkept.exists_run (fun h => h.fits hcap) hstart hp
  obtain ⟨⟨hsync, hcfg, es, rest, hout, hwarn, hfs, hrest⟩, hpos, hopen⟩ := hkept.run hstart hp ht
  have hclosed := hopen (.inr ho)
  rw [List.append_nil] at hrest
  obtain rfl : rest = [] :=
    remaining_eq_nil hsync (fun f hf => hcfg ▸ hvalid f (hfs ▸ List.mem_append_right _ hf)) hrest hpos hclosed
  have hcached := hsync.cached_eq_none (.inl (by simp [hrest]))
  exact ⟨t, es, ht, hout, by simpa using hfs, hwarn, hrest, hcached, hsync.st_eq hcached, hpos, hclosed⟩

end Sys2Proof.Machine
end

section
/-! The arithmetic of DX on its operands (spec 42_sample_demux sections 3 and 4): offsets and addresses (R196, R197), the sign
extension (R199) and the samples that the bytes of a frame decode to (R198, R200, R221). -/

namespace Sys2Proof.Machine

open Sys2Proof

/-! ### Offsets and addresses -/

/-- A count of bit numbers is a count of channels. -/
theorem countP_range_eq_countP_finRange (p : Nat → Bool) :
    (List.range 6).countP p = (List.finRange 6).countP fun d => p d.val := by
  rw [← List.map_coe_finRange_eq_range, List.countP_map]; rfl

theorem popcount_eq_countP_finRange (en : BitVec 6) :
    popcount en = (List.finRange 6).countP fun d => en.getLsbD d.val :=
  countP_range_eq_countP_finRange _

theorem enabledBelow_eq_countP_finRange (en : BitVec 6) (c : Channel) :
    enabledBelow en c.val = (List.finRange 6).countP fun d => en.getLsbD d.val && decide (d < c) := by
  rw [enabledBelow, ← range_filter_lt_channel, List.countP_filter, countP_range_eq_countP_finRange]; rfl

theorem enabledBelow_le (en : BitVec 6) (n : Nat) : enabledBelow en n ≤ n :=
  List.countP_le_length.trans_eq List.length_range

/-- R196: at most five channels lie below another, of four bytes each. -/
theorem channelOffset_le (en : BitVec 6) (w : Width) (c : Channel) : channelOffset en w c ≤ 20 := by
  have hw : w.bytes ≤ 4 := by cases w <;> decide
  have hc : enabledBelow en c.val ≤ 5 := (enabledBelow_le en c.val).trans (Nat.le_of_lt_succ c.isLt)
  exact channelOffset_eq en w c ▸ Nat.mul_le_mul hw hc

/-- Settles O47: the offset counts the enabled channels below, and the address of operands in range is that of R197. -/
theorem offsetsAndAddresses : Obligations.OffsetsAndAddresses := by
  refine ⟨fun en w c s => ⟨offsetAnswer en w c, rfl, fun he => ?offset⟩,
    fun slot sb off s => ⟨addrAnswer slot sb off, rfl, fun hslot hsb hoff => ?addr⟩⟩
  case offset =>
    rw [show offsetAnswer en w c = channelOffset en w c from if_pos he]
    refine ⟨?_, channelOffset_le en w c, ?_⟩
    · rw [channelOffset_eq, enabledBelow_eq_countP_finRange]
    · rw [← popcount_eq_countP_finRange]
      exact channelOffset_add_bytes_le w he
  case addr => exact if_pos ⟨hslot, hsb, hoff⟩

/-! ### Sign extension -/

/-- R199: the formula is the two's complement sign extension. -/
theorem sext24_eq_signExtend (u : BitVec 24) : sext24 u = u.signExtend 32 := by
  rw [sext24, ← apply_ite (BitVec.ofInt 32), BitVec.signExtend, BitVec.toInt_eq_toNat_cond]
  congr 1
  split_ifs <;> omega

theorem sext24_toInt (u : BitVec 24) :
    (sext24 u).toInt = if u.toNat < 8388608 then (u.toNat : Int) else (u.toNat : Int) - 16777216 := by
  rw [sext24_eq_signExtend, BitVec.toInt_signExtend_of_le (by decide), BitVec.toInt_eq_toNat_cond]
  split_ifs <;> omega

theorem sext24_getLsbD (u : BitVec 24) {i : Nat} (hi : i < 32) :
    (sext24 u).getLsbD i = if i < 24 then u.getLsbD i else u.getLsbD 23 := by
  rw [sext24_eq_signExtend, BitVec.getLsbD_signExtend, decide_eq_true hi, Bool.true_and, BitVec.msb_eq_getLsbD_last]

/-- Settles O44: the result is the sign extension of `u`, whose value and bits are known. -/
theorem signExtensionFromBit23 : Obligations.SignExtensionFromBit23 := by
  refine fun u s => ⟨sext24 u, rfl, fun hlt => ?_, fun hge => ?_, fun i hi => ?_, fun i hge hi => ?_⟩
  · rw [sext24_toInt, if_pos hlt]
  · rw [sext24_toInt, if_neg hge.not_gt]
  · rw [sext24_getLsbD u (by omega), if_pos hi]
  · rw [sext24_getLsbD u hi, if_neg hge.not_gt]

/-! ### Decoding -/

/-- The bytes before a last one weigh 256 times as much. -/
theorem toNat_append_byte {n : Nat} (x : BitVec n) (b : Byte) : (x ++ b).toNat = x.toNat * 256 + b.toNat := by
  rw [BitVec.toNat_append, ← Nat.shiftLeft_add_eq_or_of_lt b.isLt, Nat.shiftLeft_eq]

/-- R198: the byte at the lowest offset is the most significant. -/
theorem u24Msb_eq_append (b0 b1 b2 : Byte) : u24Msb b0 b1 b2 = b0 ++ b1 ++ b2 := by
  apply BitVec.eq_of_toNat_eq
  simp only [u24Msb, u8, BitVec.toNat_ofNat, toNat_append_byte]
  omega

theorem s32Native_little_eq_append (b0 b1 b2 b3 : Byte) : s32Native .little b0 b1 b2 b3 = b3 ++ b2 ++ b1 ++ b0 := by
  apply BitVec.eq_of_toNat_eq
  simp only [s32Native, u32Native, u8, BitVec.toNat_ofNat, toNat_append_byte]
  omega

theorem s32Native_big_eq_append (b0 b1 b2 b3 : Byte) : s32Native .big b0 b1 b2 b3 = b0 ++ b1 ++ b2 ++ b3 := by
  apply BitVec.eq_of_toNat_eq
  simp only [s32Native, u32Native, u8, BitVec.toNat_ofNat, toNat_append_byte]
  omega

/-- R190, R221: a load of the frame's width inside the frame answers the sample its bytes decode to. -/
theorem loadSample_eq_decodedAt {cfg : Config} {f : Bytes} {a : Nat} (h : a + (widthOf cfg f).bytes ≤ f.length) :
    loadSample cfg (widthOf cfg f) f a = some (decodedAt cfg f a) := by
  unfold decodedAt
  cases hw : widthOf cfg f with
  | three =>
    rw [hw] at h
    simp only [loadSample, load3_of_le h, Option.map_some, sext24_eq_signExtend, u24Msb_eq_append]
  | four =>
    rw [hw] at h
    cases ho : cfg.nativeOrder with
    | little => simp only [loadSample, load4_of_le _ h, ho, s32Native_little_eq_append]
    | big => simp only [loadSample, load4_of_le _ h, ho, s32Native_big_eq_append]

theorem channelOffset_eq_offsetOf {f : Bytes} {h : Header} (hh : headerOf f = some h) (cfg : Config) (c : Channel) :
    channelOffset h.en (h.width cfg) c = offsetOf cfg f c := by
  have hen (d : Channel) : h.en.getLsbD d.val = enabledIn f d := headerOf_chEn hh d
  rw [channelOffset_eq, enabledBelow_eq_countP_finRange, offsetOf, widthBytesOf, headerOf_width hh, channelsOf,
    List.countP_filter]
  simp only [hen, Bool.and_comm]

end Sys2Proof.Machine
end

section
/-! DX.TRANSCODE of a frame that passes the checks (R190, R221, R222): the lanes that its two loops collect, and the record. -/

namespace Sys2Proof.Machine

open Sys2Proof

/-! ### The checks on the frame's own bytes -/

/-- R191: the model's checks are those of the frame's bytes, in the same order. -/
theorem checkFrame_of_header {f : Bytes} {h : Header} (hh : headerOf f = some h) (cfg : Config) :
    checkFrame cfg f = (failureOf cfg f).elim (.ok h) .error := by
  have hl : ¬ f.length < 80 := (headerOf_eq_some.mp hh).1.not_gt
  have hw : (h.width cfg).bytes = widthBytesOf cfg f := congrArg Width.bytes (headerOf_width hh cfg)
  simp only [checkFrame, hh, headerOf_markerOk hh, headerOf_blockSamples hh, headerOf_sampleBytes hh,
    headerOf_enabledCount hh, hw, decide_eq_false_iff_not, failureOf, if_neg hl, ne_eq]
  split_ifs <;> rfl

theorem length_ge_of_passes {cfg : Config} {f : Bytes} (hpass : failureOf cfg f = none) : 80 ≤ f.length := by
  by_contra hl
  simp [failureOf, not_le.mp hl] at hpass

theorem exists_accepted_header {cfg : Config} {f : Bytes} (hpass : failureOf cfg f = none) :
    ∃ h, headerOf f = some h ∧ checkFrame cfg f = .ok h := by
  have hh := headerOf_of_le (length_ge_of_passes hpass)
  exact ⟨_, hh, by rw [checkFrame_of_header hh, hpass]; rfl⟩

/-! ### The lanes -/

/-- The lane of an enabled channel when it is complete: its `BS` samples (R221). -/
def decodedLane (cfg : Config) (f : Bytes) (c : Channel) : List Sample :=
  (List.range (bsOf cfg f)).map (sampleOf cfg f c)

/-- The lanes when the outer loop has done the channels `cs`: complete for those of them that are enabled, empty for all
others. -/
def lanesAfter (cfg : Config) (f : Bytes) (cs : List Channel) (d : Channel) : List Sample :=
  if d ∈ cs ∧ enabledIn f d = true then decodedLane cfg f d else []

section LanesAfter

variable {cfg : Config} {f : Bytes} {cs : List Channel} {c : Channel}

theorem lanesAfter_of_not_mem (hc : c ∉ cs) : lanesAfter cfg f cs c = [] := if_neg fun h => hc h.1

theorem lanesAfter_concat_of_enabled (hc : enabledIn f c = true) :
    lanesAfter cfg f (cs ++ [c]) = Function.update (lanesAfter cfg f cs) c (decodedLane cfg f c) := by
  funext d
  rcases eq_or_ne d c with rfl | hd
  · simp [lanesAfter, hc]
  · simp [lanesAfter, hd]

theorem lanesAfter_concat_of_disabled (hc : ¬ enabledIn f c = true) :
    lanesAfter cfg f (cs ++ [c]) = lanesAfter cfg f cs := by
  funext d
  rcases eq_or_ne d c with rfl | hd
  · simp [lanesAfter, hc]
  · simp [lanesAfter, hd]

end LanesAfter

/-- The registers `r` with the given lanes: all that the loops of R190 change. -/
def withLanes (r : DxRegs) (lanes : Channel → List Sample) : DxRegs := { r with ch := Vector.ofFn lanes }

theorem collect_withLanes (c : Channel) (v : Sample) (r : DxRegs) (lanes : Channel → List Sample) :
    collect c v (withLanes r lanes) = withLanes r (Function.update lanes c (lanes c ++ [v])) := by
  simp only [collect, withLanes, DxRegs.mk.injEq, true_and]
  ext1 i hi
  simp [Vector.getElem_set, Function.update_apply, Fin.ext_iff, eq_comm]

theorem lanesOf_withLanes (r : DxRegs) (lanes : Channel → List Sample) :
    lanesOf (withLanes r lanes) = ((List.finRange 6).filter (chEn r.en)).map fun c => (c, lanes c) := by
  simp [lanesOf, withLanes]

theorem startRegs_eq_withLanes (cfg : Config) (f : Bytes) (h : Header) :
    startRegs cfg f h = withLanes (startRegs cfg f h) (lanesAfter cfg f []) := by
  simp only [startRegs, withLanes, DxRegs.mk.injEq, true_and]
  ext1 i hi
  simp [lanesAfter]

/-! ### The loops -/

section Loops

variable {cfg : Config} {f : Bytes} {h : Header} {c : Channel} (hh : headerOf f = some h) (hok : checkFrame cfg f = .ok h)
include hh hok

/-- R221: for an enabled channel and an index below `BS` the load of R190 answers that sample. -/
theorem loadSample_of_accepted {k : Nat} (hc : enabledIn f c = true) (hk : k < bsOf cfg f) :
    loadSample cfg (h.width cfg) f (sampleAddr k h.sampleBytes (channelOffset h.en (h.width cfg) c)) =
      some (sampleOf cfg f c k) := by
  obtain ⟨-, hin, hlen, -⟩ := readsStayInsideTheFrame cfg f h c k _ hok ((headerOf_chEn hh c).trans hc)
    ((headerOf_blockSamples hh cfg).symm ▸ hk) rfl
  have hfit := hin.trans hlen
  rw [channelOffset_eq_offsetOf hh, headerOf_width hh, headerOf_sampleBytes hh] at hfit ⊢
  exact loadSample_eq_decodedAt hfit

/-- The inner loop appends the decoded samples, in the order of their indices (R195). -/
theorem foldl_demuxSample (hc : enabledIn f c = true) (lanes : Channel → List Sample) (n : Nat) (hn : n ≤ bsOf cfg f) :
    (List.range n).foldl (demuxSample cfg c) (withLanes (startRegs cfg f h) lanes) =
      withLanes (startRegs cfg f h)
        (Function.update lanes c (lanes c ++ (List.range n).map (sampleOf cfg f c))) := by
  induction n with
  | zero => simp
  | succ n ih =>
    have hload := loadSample_of_accepted hh hok hc hn
    rw [List.range_succ, List.foldl_concat, ih (by omega), demuxSample_of_load hload, collect_withLanes]
    simp

/-- One round of the outer loop does one channel more. -/
theorem demuxChannel_lanesAfter {cs : List Channel} (hcs : c ∉ cs) :
    demuxChannel cfg (withLanes (startRegs cfg f h) (lanesAfter cfg f cs)) c =
      withLanes (startRegs cfg f h) (lanesAfter cfg f (cs ++ [c])) := by
  have hen : chEn (withLanes (startRegs cfg f h) (lanesAfter cfg f cs)).en c = enabledIn f c := headerOf_chEn hh c
  have hbs : (withLanes (startRegs cfg f h) (lanesAfter cfg f cs)).bs = bsOf cfg f := headerOf_blockSamples hh cfg
  rw [demuxChannel, hen, hbs]
  split_ifs with hc
  · rw [foldl_demuxSample hh hok hc _ _ le_rfl, lanesAfter_of_not_mem hcs, List.nil_append,
      lanesAfter_concat_of_enabled hc, decodedLane]
  · rw [lanesAfter_concat_of_disabled hc]

/-- The outer loop, over any channels without repetition: its invariant is `lanesAfter`. -/
theorem foldl_demuxChannel {cs : List Channel} (hcs : cs.Nodup) :
    cs.foldl (demuxChannel cfg) (startRegs cfg f h) = withLanes (startRegs cfg f h) (lanesAfter cfg f cs) := by
  induction cs using List.reverseRecOn with
  | nil => exact startRegs_eq_withLanes cfg f h
  | append_singleton cs c ih =>
    obtain ⟨hc, hnodup⟩ := (List.nodup_concat cs c).mp (List.concat_eq_append ▸ hcs)
    rw [List.foldl_concat, ih hnodup, demuxChannel_lanesAfter hh hok hc]

/-- R221, R222: the transcode hands over the complete lanes of the enabled channels, ascending. -/
theorem lanesOf_demuxFrame :
    lanesOf (demuxFrame cfg (startRegs cfg f h)) = (channelsOf f).map fun c => (c, decodedLane cfg f c) := by
  rw [demuxFrame, foldl_demuxChannel hh hok (List.nodup_finRange 6), lanesOf_withLanes]
  have hen : chEn (startRegs cfg f h).en = enabledIn f := funext (headerOf_chEn hh)
  rw [hen, channelsOf]
  refine List.map_congr_left fun c hc => ?_
  rw [lanesAfter, if_pos ⟨List.mem_finRange c, List.of_mem_filter hc⟩]

end Loops

/-! ### The record -/

theorem transcode_of_accepted {s : State} {f : Bytes} {h : Header} (hok : checkFrame s.cfg f = .ok h) :
    transcode f s = handOver h (demuxFrame s.cfg (startRegs s.cfg f h)) s := by
  rw [transcode, hok]

/-- Settles O50: the record is that of the frame's header and of the lanes that the two loops leave, each lane being the
decoded samples of its channel. -/
theorem transcodeYieldsTheLanes : Obligations.TranscodeYieldsTheLanes := by
  intro f s hpass
  obtain ⟨h, hh, hok⟩ := exists_accepted_header hpass
  refine ⟨sampleRecord s.cfg h s.fseq (lanesOf (demuxFrame s.cfg (startRegs s.cfg f h))),
    congrArg Host.Outcome.next (transcode_of_accepted hok), rfl, (headerOf_eq_some.mp hh).2, headerOf_width hh s.cfg,
    headerOf_en hh, headerOf_blockSamples hh s.cfg, headerOf_range hh (by decide), ?interval, ?channels, ?samples⟩
  case interval =>
    exact congrArg₂ s.cfg.intervalLut.lookup (headerOf_bit hh 13 7 _) (headerOf_bit hh 13 4 _)
  case channels =>
    simp [sampleRecord, lanesOf_demuxFrame hh hok, Function.comp_def]
  case samples =>
    intro c lane hmem
    obtain ⟨d, -, hd⟩ := List.mem_map.mp (lanesOf_demuxFrame hh hok ▸ hmem)
    cases hd
    refine ⟨by simp [decodedLane], fun k hk => ?_⟩
    simp [decodedLane, hk]

end Sys2Proof.Machine
end

section
/-! R228: how many samples the record of a transcode carries. -/

namespace Sys2Proof.Machine

open Sys2Proof

/-- Lanes of one length carry that many samples each. -/
theorem sampleCount_of_lane_length {r : SampleRecord} {n : Nat} (h : ∀ p ∈ r.lanes, p.2.length = n) :
    r.sampleCount = r.lanes.length * n := by
  rw [SampleRecord.sampleCount, SampleRecord.serial, List.length_flatMap, List.map_eq_replicate_iff.mpr h,
    List.sum_replicate, smul_eq_mul]

/-- Settles O51: the record has one lane for each enabled channel, and each lane has `BS` samples. -/
theorem recordCarriesAllSamples : Obligations.RecordCarriesAllSamples := by
  intro f s hpass
  obtain ⟨rec, hexec, -, -, -, -, -, -, -, hchannels, hlanes⟩ := transcodeYieldsTheLanes f s hpass
  refine ⟨_, rec, hexec, rfl, ?_⟩
  rw [sampleCount_of_lane_length fun p hp => (hlanes p.1 p.2 hp).1, ← hchannels, List.length_map]

end Sys2Proof.Machine
end

section
/-! SUPPORT. All that one operation can do (R100): the one inversion of `exec`, in the terms of the shared operations. -/

namespace Sys2Proof.Machine

open Sys2Proof

/-- What an operation that answers a next state has done: a returned value, a beat, an append, a run of the loop, one
micro-operation of it, a transcode or one of the transcode's parts, or a restart of the sequence. -/
inductive ExecEffect (i : Instr) (s t : State) : Prop
  /-- NOP, the empty PUSH, the accessors of HP, the arithmetic and the loads of DX -/
  | answer (hb : bytesPushed i = []) (r : Ret) (ht : t = { s with ret := r })
  /-- R241 -/
  | beat (hfit : Memory.fits s.cfg.bufCap s.buf.length (bytesPushed i).length = true)
      (ht : t = { s with buf := s.buf ++ bytesPushed i, chunkOpen := true })
  /-- R152 -/
  | append (hfit : Memory.fits s.cfg.bufCap s.buf.length (bytesPushed i).length = true)
      (ht : t = appendChunk (bytesPushed i) s)
  /-- R150, R242 -/
  | loop (hfit : Memory.fits s.cfg.bufCap s.buf.length (bytesPushed i).length = true) (r : Ret)
      (ht : t = { progress (loopFuel (s.buf ++ bytesPushed i).length) (startLoop (bytesPushed i) s) with ret := r })
  /-- R153 to R163 -/
  | microOp (p : LoopPos) (m : FsOp) (hi : m.instr = i) (he : m.Enabled { s with pos := p }) (ht : t = m.apply s)
  /-- R190 -/
  | transcode (f : Bytes) (hi : i = .dxTranscode f) (ht : t = transcode f s)
  /-- R191, a check that fails -/
  | raise (f : Bytes) (c : ErrCause) (hi : i = .dxCheck f) (hc : checkFrame s.cfg f = .error c)
      (ht : t = { raise c s with ret := .checked (some c) })
  /-- R191, a frame that passes -/
  | openRegs (f : Bytes) (h : Header) (hi : i = .dxCheck f) (hok : checkFrame s.cfg f = .ok h)
      (ht : t = { s with dx := some (startRegs s.cfg f h), ret := .checked none })
  /-- R220 -/
  | collect (c : Channel) (k : Nat) (v : Sample) (d : DxRegs) (hi : i = .cpCollect c k v) (hdx : s.dx = some d)
      (hsel : chEn d.en c = true ∧ k < d.bs ∧ k = d.ch[c.val].length) (ht : t = { s with dx := some (collect c v d) })
  /-- R222 -/
  | handOver (f : Bytes) (h : Header) (d : DxRegs) (hi : i = .cpOut f) (hdx : s.dx = some d)
      (hok : checkFrame s.cfg f = .ok h) (hsel : d.f = f ∧ lanesComplete d = true) (ht : t = handOver h d s)
  /-- R243 -/
  | reset (hi : i = .reset) (ht : t = restartSequence (clearBlock s))
  /-- R226 -/
  | restart (hi : i = .cpRestart) (ht : t = restartSequence s)

/-- A guarded operation that answers a next state has passed its guard. -/
theorem guard_next {p : Prop} [Decidable p] {t u : State} {r : Refusal}
    (h : (if p then .next u else .refused r : Host.Outcome State Fault Refusal) = .next t) : p ∧ t = u := by
  split at h <;> cases h
  exact ⟨‹_›, rfl⟩

section

variable {i : Instr} {s t : State}

theorem ExecEffect.of_next (hb : bytesPushed i = []) {r : Ret}
    (h : (.next { s with ret := r } : Host.Outcome State Fault Refusal) = .next t) : ExecEffect i s t :=
  .answer hb r (Host.Outcome.next.inj h).symm

theorem ExecEffect.of_withHeader (hb : bytesPushed i = []) {v : View} {field : Header → Ret}
    (h : withHeader v s field = .next t) : ExecEffect i s t := by
  rcases withHeader_cases v s field with ⟨_, _, hv⟩ | ⟨_, hv⟩ <;> rw [hv] at h
  · exact .of_next hb h
  · cases h

theorem ExecEffect.of_runSelected {p : LoopPos} (h : runSelected p i s = .next t) : ExecEffect i s t := by
  obtain ⟨m, hs, hi, ht⟩ := runSelected_next.mp h
  exact .microOp p m hi (enabled_of_select (s := { s with pos := p }) hs) ht

/-- Every operation that answers a next state has one of the effects. -/
theorem execEffect (h : exec i s = .next t) : ExecEffect i s t := by
  cases i with
  | nop => exact .of_next rfl (r := s.ret) h
  | pushb d =>
    obtain ⟨hfit, ht⟩ := guard_next h
    exact .beat hfit ht
  | pushbL d =>
    obtain ⟨hfit, ht⟩ := guard_next h
    exact .loop hfit s.ret ht
  | reset => exact .reset rfl (Host.Outcome.next.inj h).symm
  | rsvd => cases h
  | push chunk =>
    cases chunk with
    | nil => exact .of_next rfl h
    | cons b rest =>
      obtain ⟨hfit, ht⟩ := guard_next h
      exact .loop hfit _ ht
  | fsAppend chunk =>
    obtain ⟨hfit, ht⟩ := guard_next h
    exact .append hfit ht
  | fsWaithdr | fsSearch | fsSync0 | fsDropk | fsKeeptail | fsFlush | fsLen | fsWaitbody | fsEmit =>
    exact .of_runSelected h
  | hpMarker | hpHdrsize | hpWidth | hpIntoff | hpLowpwr | hpLowrate | hpCfg | hpChen | hpChmap | hpBsamples | hpSbytes
  | hpFlen | hpStime | hpMisc | hpRevboard | hpGps | hpGpsfix | hpPosdisc | hpPosstr | hpTail | hpInterval =>
    exact .of_withHeader rfl h
  | hpBatt r | hpTemp r | hpGpsage r =>
    cases r with
    | given => exact .of_next rfl h
    | header => exact .of_withHeader rfl h
  | dxTranscode f => exact .transcode f rfl (Host.Outcome.next.inj h).symm
  | dxCheck f =>
    simp only [exec, execDxCheck] at h
    split at h <;> cases h
    · exact .raise f _ rfl ‹_› rfl
    · exact .openRegs f _ rfl ‹_› rfl
  | dxOffset | dxAddr | dxSext24 => exact .of_next rfl h
  | dxLoad3 f a =>
    simp only [exec, execDxLoad3] at h
    split at h
    · exact .of_next rfl h
    · cases h
  | dxLoad4 f a =>
    simp only [exec, execDxLoad4] at h
    split at h
    · exact .of_next rfl h
    · cases h
  | cpCollect c k v =>
    simp only [exec, execCpCollect] at h
    split at h
    · cases h
    · obtain ⟨hsel, ht⟩ := guard_next h
      exact .collect c k v _ rfl ‹_› hsel ht
  | cpOut f =>
    simp only [exec, execCpOut] at h
    split at h
    · obtain ⟨hsel, ht⟩ := guard_next h
      exact .handOver f _ _ rfl ‹_› ‹_› hsel ht
    · cases h
    · cases h
  | cpRestart => exact .restart rfl (Host.Outcome.next.inj h).symm

end

end Sys2Proof.Machine
end

section
/-! R225: FSEQ counts the records, along every operation. -/

namespace Sys2Proof.Machine

open Sys2Proof

/-- The records that `es` adds at index `n` take the successive indices from `n` on, and leave the index `m`. -/
def Numbers (n : Nat) (es : List Event) (m : Nat) : Prop :=
  m = n + (es.filterMap Event.fseq?).length ∧
    es.filterMap Event.fseq? = List.range' n (es.filterMap Event.fseq?).length

/-- R225 between two states of a run. -/
def CountsRecords (s t : State) : Prop := ∃ es, t.out = s.out ++ es ∧ Numbers s.fseq es t.fseq

theorem Numbers.nil (n : Nat) : Numbers n [] n := ⟨rfl, rfl⟩

/-- Successive stretches of events number their records on from one another. -/
theorem Numbers.append {n m k : Nat} {es es' : List Event} (h : Numbers n es m) (h' : Numbers m es' k) :
    Numbers n (es ++ es') k := by
  obtain ⟨hm, hes⟩ := h
  obtain ⟨hk, hes'⟩ := h'
  rw [Numbers, List.filterMap_append, List.length_append, ← List.range'_append_1, ← hm, ← hes, ← hes']
  exact ⟨by omega, rfl⟩

/-- An event that is no record takes no index. -/
theorem Numbers.of_not_record {e : Event} (he : e.fseq? = none) (n : Nat) : Numbers n [e] n := by
  simp [Numbers, he]

/-- A record that carries `n` takes the one index `n`. -/
theorem Numbers.record (r : SampleRecord) : Numbers r.fseq [.samples r] (r.fseq + 1) := ⟨rfl, rfl⟩

/-- R190, R225: a transcode makes one record or none. -/
theorem numbers_transcodeEvent (cfg : Config) (n : Nat) (f : Bytes) :
    Numbers n [transcodeEvent cfg n f] (transcodeFseq cfg n f) := by
  unfold transcodeEvent transcodeFseq
  cases checkFrame cfg f with
  | error c => exact .of_not_record rfl n
  | ok h => exact .record (sampleRecord cfg h n _)

namespace CountsRecords

variable {s t u : State}

theorem of_silent (hout : t.out = s.out) (hfseq : t.fseq = s.fseq) : CountsRecords s t :=
  ⟨[], by simp [hout], hfseq ▸ .nil s.fseq⟩

theorem trans (h : CountsRecords s t) (h' : CountsRecords t u) : CountsRecords s u := by
  obtain ⟨es, hout, hnum⟩ := h
  obtain ⟨es', hout', hnum'⟩ := h'
  exact ⟨es ++ es', by rw [hout', hout, List.append_assoc], hnum.append hnum'⟩

theorem of_transcode (f : Bytes) (s : State) : CountsRecords s (transcode f s) :=
  ⟨_, transcode_out f s, transcode_fseq f s ▸ numbers_transcodeEvent s.cfg s.fseq f⟩

/-- No micro-operation of the loop but FS.EMIT makes a record, and FS.EMIT does it by its transcode. -/
theorem of_apply (m : FsOp) (s : State) : CountsRecords s (m.apply s) := by
  cases m with
  | waitHdr | search | sync0 | waitBody => exact of_silent rfl rfl
  | len n => exact of_silent (cacheLen_out n s) (cacheLen_fseq n s)
  | dropK | keepTail | flush => exact ⟨_, rfl, .of_not_record rfl s.fseq⟩
  | emit l =>
    exact ⟨_, emitFrame_out l s, emitFrame_fseq l s ▸
      (Numbers.of_not_record (e := .frame _) rfl s.fseq).append (numbers_transcodeEvent s.cfg s.fseq _)⟩

theorem of_progress (n : Nat) (s : State) : CountsRecords s (progress n s) :=
  progress_keeps (P := CountsRecords s) (fun _ m h _ => h.trans (of_apply m _)) n s (of_silent rfl rfl)

end CountsRecords

/-- Settles O14: of the effects an operation can have, the hand-over and the transcodes make records, and only RESET and
CP.RESTART set FSEQ back. -/
theorem fseqCountsTheRecords : Obligations.FseqCountsTheRecords := by
  intro i s t hreset hrestart hexec
  change CountsRecords s t
  cases execEffect hexec with
  | answer _ _ ht | beat _ ht | append _ ht | openRegs _ _ _ _ ht | collect _ _ _ _ _ _ _ ht =>
    exact .of_silent (ht ▸ rfl) (ht ▸ rfl)
  | loop _ _ ht => exact ht ▸ .of_progress _ (startLoop (bytesPushed i) s)
  | microOp _ m _ _ ht => exact ht ▸ .of_apply m s
  | transcode f _ ht => exact ht ▸ .of_transcode f s
  | raise _ c _ _ ht => exact ht ▸ ⟨_, rfl, .of_not_record rfl s.fseq⟩
  | handOver _ h d _ _ _ _ ht => exact ht ▸ ⟨_, rfl, .record (sampleRecord s.cfg h s.fseq _)⟩
  | reset hi => exact absurd hi hreset
  | restart hi => exact absurd hi hrestart

end Sys2Proof.Machine
end

section
/-! SUPPORT. The fields of a command word (spec 30_encoding R101): `op` read through its mask, and the fields of a word whose
data bits are a byte added to a word without data. -/

namespace Sys2Proof.Machine

open Sys2Proof

/-- Masking bits 10:9 determines `op`: the rows of R101 with mask 0x600 are told apart by it. -/
theorem cmdOp_of_and_mask {w : CmdWord} {op : BitVec 2} (h : w &&& 0x600#11 = op.setWidth 11 <<< 9) : cmdOp w = op := by
  have hmask : cmdOp (w &&& 0x600#11) = cmdOp w := by
    rw [cmdOp, BitVec.extractLsb'_and]
    exact BitVec.and_allOnes
  have hshift : ∀ op : BitVec 2, cmdOp (op.setWidth 11 <<< 9) = op := by decide
  rw [← hmask, h, hshift]

theorem toNat_cmdOp (w : CmdWord) : (cmdOp w).toNat = w.toNat / 512 % 4 := by
  simp [cmdOp, Nat.shiftRight_eq_div_pow]

theorem toNat_cmdData (w : CmdWord) : (cmdData w).toNat = w.toNat % 256 := by simp [cmdData]

theorem cmdLast_eq_decide (w : CmdWord) : cmdLast w = decide (w.toNat / 256 % 2 = 1) :=
  Nat.testBit_eq_decide_div_mod_eq

section
variable {p : CmdWord} (hp : cmdData p = 0#8) (d : Byte)
include hp

theorem toNat_mod_of_no_data : p.toNat % 256 = 0 := by rw [← toNat_cmdData, hp]; rfl

/-- A byte added to a word without data carries into no other field. -/
theorem toNat_add_data : (p + d.setWidth 11).toNat = p.toNat + d.toNat := by
  have hmod := toNat_mod_of_no_data hp
  simp only [BitVec.toNat_add, BitVec.toNat_setWidth]
  omega

theorem cmdOp_add_data : cmdOp (p + d.setWidth 11) = cmdOp p := by
  have hmod := toNat_mod_of_no_data hp
  apply BitVec.eq_of_toNat_eq
  rw [toNat_cmdOp, toNat_cmdOp, toNat_add_data hp]
  omega

theorem cmdLast_add_data : cmdLast (p + d.setWidth 11) = cmdLast p := by
  have hmod := toNat_mod_of_no_data hp
  rw [cmdLast_eq_decide, cmdLast_eq_decide, toNat_add_data hp, decide_eq_decide]
  omega

theorem cmdData_add_data : cmdData (p + d.setWidth 11) = d := by
  have hmod := toNat_mod_of_no_data hp
  apply BitVec.eq_of_toNat_eq
  rw [toNat_cmdData, toNat_add_data hp]
  omega

end

theorem decodeCmd_of_op_zero {w : CmdWord} (h : cmdOp w = 0#2) : decodeCmd w = .nop := if_pos h

theorem decodeCmd_of_op_one {w : CmdWord} (h : cmdOp w = 1#2) :
    decodeCmd w = if cmdLast w then .pushbL (cmdData w) else .pushb (cmdData w) := by simp [decodeCmd, h]

theorem decodeCmd_of_op_three {w : CmdWord} (h : cmdOp w = 3#2) : decodeCmd w = .rsvd := by simp [decodeCmd, h]

theorem decodeCmd_pushb_word (d : Byte) : decodeCmd (0x200#11 + d.setWidth 11) = .pushb d := by
  have hdata : cmdData 0x200#11 = 0#8 := by decide
  have hop : cmdOp 0x200#11 = 1#2 := by decide
  have hlast : cmdLast 0x200#11 = false := by decide
  rw [decodeCmd_of_op_one ((cmdOp_add_data hdata d).trans hop), cmdLast_add_data hdata, cmdData_add_data hdata, hlast]
  rfl

end Sys2Proof.Machine
end

section
/-! The command port's operations that run no loop (spec 44_control_ops): NOP, PUSHB and RSVD. -/

namespace Sys2Proof.Machine

open Sys2Proof

theorem exec_nop (s : State) : exec .nop s = .next s := rfl

theorem exec_rsvd (s : State) : exec .rsvd s = .refused .reservedCommand := rfl

/-- Settles O16: NOP answers the state it is given, and bits 10:9 clear make `op` 00. -/
theorem nopDoesNothing : Obligations.NopDoesNothing :=
  ⟨exec_nop, fun _ hw => decodeCmd_of_op_zero (cmdOp_of_and_mask hw), rfl⟩

/-- Settles O17: the word carries its byte in the data bits; the two outcomes are the branches of the capacity's guard. -/
theorem pushbAppendsOneByte : Obligations.PushbAppendsOneByte := by
  intro d s
  refine ⟨decodeCmd_pushb_word d, fun hfit => ?fits, fun hfull => ?full⟩
  case fits => rw [exec_pushb, if_pos ((fits_iff _ _ _).mpr hfit)]
  case full => rw [exec_pushb]; exact append_refused_iff.mpr hfull

/-- Settles O23: RSVD answers the refusal in every state, and bits 10:9 set make `op` 11. -/
theorem reservedCommandIsRefused : Obligations.ReservedCommandIsRefused :=
  ⟨exec_rsvd, fun _ hw => decodeCmd_of_op_three (cmdOp_of_and_mask hw)⟩

end Sys2Proof.Machine
end

section
/-! DX.TRANSCODE of a frame that fails a check (R266; spec 60_exceptions): the one error that it raises. -/

namespace Sys2Proof.Machine

open Sys2Proof

/-- R191: a frame with no header to view is too short; with a header, the model's checks are those of the frame's bytes. -/
theorem checkFrame_of_failure {cfg : Config} {f : Bytes} {c : ErrCause} (hfail : failureOf cfg f = some c) :
    checkFrame cfg f = .error c := by
  cases hh : headerOf f with
  | none =>
    have hc : c = .shortHeader := by simpa [failureOf, headerOf_eq_none.mp hh] using hfail.symm
    rw [hc, checkFrame, hh]
  | some h => rw [checkFrame_of_header hh, hfail]; rfl

theorem transcode_of_failure {f : Bytes} {s : State} {c : ErrCause} (hfail : failureOf s.cfg f = some c) :
    transcode f s = raise c s := by
  rw [transcode, checkFrame_of_failure hfail]

/-- R264: the causes reported as a malformed frame. -/
theorem cls_eq_malformedFrame_iff (c : ErrCause) :
    c.cls = .malformedFrame ↔ c = .shortHeader ∨ c = .shortBody := by
  cases c <;> decide

/-- R263: the causes reported as an invalid header field. -/
theorem cls_eq_invalidHeaderField_iff (c : ErrCause) :
    c.cls = .invalidHeaderField ↔ c = .zeroLength ∨ c = .slotOverrun ∨ c = .badMarker := by
  cases c <;> decide

/-- Settles O49: the transcode of a failing frame is the exception entry, which emits the error and changes nothing but DX. -/
theorem errorsSkipOnlyTheFrame : Obligations.ErrorsSkipOnlyTheFrame := by
  intro f s c hfail
  have hraise : exec (.dxTranscode f) s = .next (raise c s) := congrArg Host.Outcome.next (transcode_of_failure hfail)
  exact ⟨hraise, cls_eq_malformedFrame_iff c, cls_eq_invalidHeaderField_iff c⟩

end Sys2Proof.Machine
end

section
/-! The state that power-on reset leaves (R300; spec 70_reset_and_hazards). -/

namespace Sys2Proof.Machine

open Sys2Proof

/-- R23: `LV` is no register of its own; it is clear exactly when no length is cached. -/
theorem lv_eq_false_iff {s : State} : s.lv = false ↔ s.cached = none :=
  Option.isSome_eq_false_iff.trans Option.isNone_iff_eq_none

/-- Settles O7: every element but `LV` is a field that the reset state gives, and `LV` is clear for want of a cached length. -/
theorem powerOnResetValues : Obligations.PowerOnResetValues := by
  have hcached : State.reset.cached = none := rfl
  have hlv : State.reset.lv = false := lv_eq_false_iff.mpr hcached
  exact ⟨rfl, hcached, hlv, rfl, rfl, rfl, rfl⟩

end Sys2Proof.Machine
end

section
/-! The command words (spec 30_encoding R101, R102, R106): a word is its three fields, the rows of the table are told apart by
them, and encoder and decoder undo one another. -/

namespace Sys2Proof.Machine

open Sys2Proof

/-! ### A word and its fields -/

/-- R101: the three fields fill the 11 bits. -/
theorem toNat_eq_of_fields (w : CmdWord) :
    w.toNat = 512 * (cmdOp w).toNat + 256 * (cmdLast w).toNat + (cmdData w).toNat := by
  rw [toNat_cmdOp, toNat_cmdData, cmdLast_eq_decide]
  by_cases hlast : w.toNat / 256 % 2 = 1
  · rw [decide_eq_true hlast, Bool.toNat_true]; omega
  · rw [decide_eq_false hlast, Bool.toNat_false]; omega

theorem cmdWord_ext {v w : CmdWord} (hop : cmdOp v = cmdOp w) (hlast : cmdLast v = cmdLast w)
    (hdata : cmdData v = cmdData w) : v = w := by
  apply BitVec.eq_of_toNat_eq
  rw [toNat_eq_of_fields v, toNat_eq_of_fields w, hop, hlast, hdata]

theorem cmdOp_and (w m : CmdWord) : cmdOp (w &&& m) = cmdOp w &&& cmdOp m := BitVec.extractLsb'_and

theorem cmdLast_and (w m : CmdWord) : cmdLast (w &&& m) = (cmdLast w && cmdLast m) := BitVec.getLsbD_and

theorem cmdData_and (w m : CmdWord) : cmdData (w &&& m) = cmdData w &&& cmdData m := BitVec.extractLsb'_and

/-- The mask 0x600 keeps `op` and clears the rest: a pattern without `last` and data is met by its `op` alone. -/
theorem and_op_mask_eq_iff {w p : CmdWord} (hlast : cmdLast p = false) (hdata : cmdData p = 0#8) :
    w &&& 0x600#11 = p ↔ cmdOp w = cmdOp p := by
  have hop : cmdOp (w &&& 0x600#11) = cmdOp w := (cmdOp_and w _).trans BitVec.and_allOnes
  have hl : cmdLast (w &&& 0x600#11) = false := (cmdLast_and w _).trans (Bool.and_false _)
  have hd : cmdData (w &&& 0x600#11) = 0#8 := (cmdData_and w _).trans BitVec.and_zero
  exact ⟨fun h => hop.symm.trans (congrArg cmdOp h), fun h => cmdWord_ext (hop.trans h) (hl.trans hlast.symm)
    (hd.trans hdata.symm)⟩

/-- The mask 0x700 keeps `op` and `last` and clears the data. -/
theorem and_beat_mask_eq_iff {w p : CmdWord} (hdata : cmdData p = 0#8) :
    w &&& 0x700#11 = p ↔ cmdOp w = cmdOp p ∧ cmdLast w = cmdLast p := by
  have hop : cmdOp (w &&& 0x700#11) = cmdOp w := (cmdOp_and w _).trans BitVec.and_allOnes
  have hl : cmdLast (w &&& 0x700#11) = cmdLast w := (cmdLast_and w _).trans (Bool.and_true _)
  have hd : cmdData (w &&& 0x700#11) = 0#8 := (cmdData_and w _).trans BitVec.and_zero
  refine ⟨fun h => ⟨hop.symm.trans (congrArg cmdOp h), hl.symm.trans (congrArg cmdLast h)⟩, fun ⟨ho, hlast⟩ => ?_⟩
  exact cmdWord_ext (hop.trans ho) (hl.trans hlast) (hd.trans hdata.symm)

/-- The four values of `op`. -/
theorem cmdOp_cases (w : CmdWord) : cmdOp w = 0#2 ∨ cmdOp w = 1#2 ∨ cmdOp w = 2#2 ∨ cmdOp w = 3#2 := by
  generalize cmdOp w = op
  revert op; decide

/-! ### The decoder, row by row -/

theorem decodeCmd_of_op_two {w : CmdWord} (h : cmdOp w = 2#2) : decodeCmd w = .reset := by simp [decodeCmd, h]

theorem decodeCmd_pushbL_word (d : Byte) : decodeCmd (0x300#11 + d.setWidth 11) = .pushbL d := by
  have hdata : cmdData 0x300#11 = 0#8 := by decide
  have hop : cmdOp 0x300#11 = 1#2 := by decide
  have hlast : cmdLast 0x300#11 = true := by decide
  rw [decodeCmd_of_op_one ((cmdOp_add_data hdata d).trans hop), cmdLast_add_data hdata, cmdData_add_data hdata, hlast]
  rfl

/-- Settles O1: each word's three fields are read off it, and they select its row. -/
theorem specWordsDecode : Obligations.SpecWordsDecode := by
  unfold Obligations.SpecWordsDecode
  decide

/-! ### The table -/

theorem cmdData_eq_ofNat (w : CmdWord) : cmdData w = BitVec.ofNat 8 w.toNat := by
  apply BitVec.eq_of_toNat_eq
  rw [toNat_cmdData, BitVec.toNat_ofNat]

theorem accepts_op_row {name : String} {p : CmdWord} (hlast : cmdLast p = false) (hdata : cmdData p = 0#8)
    (w : CmdWord) : (CmdRow.mk name p 0x600#11).accepts w = decide (cmdOp w = cmdOp p) :=
  decide_eq_decide.mpr (and_op_mask_eq_iff hlast hdata)

theorem accepts_beat_row {name : String} {p : CmdWord} (hdata : cmdData p = 0#8) (w : CmdWord) :
    (CmdRow.mk name p 0x700#11).accepts w = decide (cmdOp w = cmdOp p ∧ cmdLast w = cmdLast p) :=
  decide_eq_decide.mpr (and_beat_mask_eq_iff hdata)

/-- R101: for each of the eight values of `op` and `last` one row accepts. -/
theorem length_filter_accepts (w : CmdWord) : (cmdTable.filter fun r => r.accepts w).length = 1 := by
  simp only [← List.countP_eq_length_filter, cmdTable, List.countP_cons, List.countP_nil,
    accepts_op_row (p := 0x000#11) rfl rfl, accepts_op_row (p := 0x400#11) rfl rfl,
    accepts_op_row (p := 0x600#11) rfl rfl, accepts_beat_row (p := 0x200#11) rfl, accepts_beat_row (p := 0x300#11) rfl]
  generalize cmdOp w = op
  generalize cmdLast w = last
  revert op last
  decide

/-- Settles O2: the rows are told apart by `op` and `last`, and the decoder reads the same fields. -/
theorem everyCommandWordHasExactlyOneRow : Obligations.EveryCommandWordHasExactlyOneRow := by
  intro w
  refine ⟨length_filter_accepts w, fun hw => ?nop, fun hw => ?pushb, fun hw => ?pushbL, fun hw => ?reset,
    fun hw => ?rsvd⟩
  case nop => exact decodeCmd_of_op_zero (cmdOp_of_and_mask hw)
  case pushb =>
    obtain ⟨hop, hlast⟩ := (and_beat_mask_eq_iff rfl).mp hw
    rw [decodeCmd_of_op_one hop, hlast, cmdData_eq_ofNat]
    rfl
  case pushbL =>
    obtain ⟨hop, hlast⟩ := (and_beat_mask_eq_iff rfl).mp hw
    rw [decodeCmd_of_op_one hop, hlast, cmdData_eq_ofNat]
    rfl
  case reset => exact decodeCmd_of_op_two (cmdOp_of_and_mask hw)
  case rsvd => exact decodeCmd_of_op_three (cmdOp_of_and_mask hw)

/-! ### The encoder -/

/-- The words of a chunk decode to its beats (R102, R106). -/
theorem decodeWords_encodeChunk (chunk : Bytes) : decodeWords (encodeChunk chunk) = beats chunk := by
  induction chunk using encodeChunk.induct with
  | case1 => rfl
  | case2 b => exact congrArg (fun i => [i]) (decodeCmd_pushbL_word b)
  | case3 b c rest ih =>
    calc decodeWords (encodeChunk (b :: c :: rest))
      _ = decodeCmd (0x200#11 + b.setWidth 11) :: decodeWords (encodeChunk (c :: rest)) := rfl
      _ = beats (b :: c :: rest) := by rw [decodeCmd_pushb_word, ih, beats]

/-- A command-port operation's one word decodes to it. -/
theorem decodeCmd_of_encodeWord {i : Instr} {w : CmdWord} (h : encodeWord i = some w) : decodeCmd w = i := by
  cases i with
  | pushb d => cases h; exact decodeCmd_pushb_word d
  | pushbL d => cases h; exact decodeCmd_pushbL_word d
  | nop | reset | rsvd => cases h; rfl
  | _ => cases h

/-- Settles O3: one word for a command-port operation; for PUSH an induction on the chunk. -/
theorem decodeUndoesEncode : Obligations.DecodeUndoesEncode := by
  intro i ws h
  cases i with
  | push chunk => cases h; exact decodeWords_encodeChunk chunk
  | nop | pushb | pushbL | reset | rsvd =>
    rw [encode] at h
    obtain ⟨w, hw, rfl⟩ := Option.map_eq_some_iff.mp h
    exact congrArg (fun i => [i]) (decodeCmd_of_encodeWord hw)
  | _ => cases h

/-- For `op` = 01 the encoder writes the word that was decoded. -/
theorem encodeWord_decodeCmd_of_op_one {w : CmdWord} (h : cmdOp w = 1#2) : encodeWord (decodeCmd w) = some w := by
  have hbeat {p : CmdWord} (hp : cmdData p = 0#8) (hop : cmdOp p = 1#2) (hlast : cmdLast w = cmdLast p) :
      p + (cmdData w).setWidth 11 = w :=
    cmdWord_ext ((cmdOp_add_data hp _).trans (hop.trans h.symm)) ((cmdLast_add_data hp _).trans hlast.symm)
      (cmdData_add_data hp _)
  rw [decodeCmd_of_op_one h]
  cases hlast : cmdLast w with
  | true => exact congrArg some (hbeat (p := 0x300#11) rfl rfl hlast)
  | false => exact congrArg some (hbeat (p := 0x200#11) rfl rfl hlast)

/-- For the other values of `op` the encoder writes the word with `last` and data zero. -/
theorem encodeWord_decodeCmd_of_op_ne_one {w : CmdWord} (h : cmdOp w ≠ 1#2) :
    encodeWord (decodeCmd w) = some (w &&& 0x600#11) := by
  rcases cmdOp_cases w with hop | hop | hop | hop
  · rw [decodeCmd_of_op_zero hop, (and_op_mask_eq_iff (p := 0x000#11) rfl rfl).mpr hop]; rfl
  · exact absurd hop h
  · rw [decodeCmd_of_op_two hop, (and_op_mask_eq_iff (p := 0x400#11) rfl rfl).mpr hop]; rfl
  · rw [decodeCmd_of_op_three hop, (and_op_mask_eq_iff (p := 0x600#11) rfl rfl).mpr hop]; rfl

/-- Settles O4: the operation's own word, which keeps a beat's fields and clears the ignored ones of the others. -/
theorem encodeUndoesDecode : Obligations.EncodeUndoesDecode := by
  intro w
  by_cases h : cmdOp w = 1#2
  · have hw := encodeWord_decodeCmd_of_op_one h
    exact ⟨w, hw, rfl, fun _ => rfl, fun hne => absurd h hne⟩
  · have hw := encodeWord_decodeCmd_of_op_ne_one h
    exact ⟨_, hw, decodeCmd_of_encodeWord hw, fun he => absurd he h, fun _ => rfl⟩

end Sys2Proof.Machine
end

section
/-! The synchronizer's own elements along every operation (R246, R166, R301): only the appends, the loop, its micro-operations
and RESET touch them; what each of these does to the configuration, the bytes and the cached length. -/

namespace Sys2Proof.Machine

open Sys2Proof

/-! ### Operations outside the synchronizer -/

@[simp] theorem bytesOut_nil : bytesOut [] = 0 := rfl

@[simp] theorem bytesOut_cons (e : Event) (es : List Event) : bytesOut (e :: es) = e.bytesOut + bytesOut es := by
  simp [bytesOut]

@[simp] theorem bytesOut_frame (f : Bytes) : (Event.frame f).bytesOut = f.length := rfl

@[simp] theorem bytesOut_append (es es' : List Event) : bytesOut (es ++ es') = bytesOut es + bytesOut es' := by
  simp [bytesOut]

/-- R166: what a transcode emits accounts for no byte. -/
@[simp] theorem transcodeEvent_bytesOut (cfg : Config) (n : Nat) (f : Bytes) :
    (transcodeEvent cfg n f).bytesOut = 0 := by
  unfold transcodeEvent; split <;> rfl

/-- The synchronizer's elements, the configuration and the requests are as they were, and no byte left the buffer. -/
structure SyncUntouched (s t : State) : Prop where
  cfg : t.cfg = s.cfg
  inp : t.inp = s.inp
  buf : t.buf = s.buf
  cached : t.cached = s.cached
  st : t.st = s.st
  chunkOpen : t.chunkOpen = s.chunkOpen
  pos : t.pos = s.pos
  out : ∃ es, t.out = s.out ++ es ∧ bytesOut es = 0

theorem syncUntouched_transcode (f : Bytes) (s : State) : SyncUntouched s (transcode f s) := by
  constructor <;> simp [transcode_out]

/-- The effects of an operation, seen from the synchronizer. -/
inductive SyncEffect (i : Instr) (s t : State) : Prop
  /-- NOP, the operations of HP, DX and CP -/
  | untouched (hb : bytesPushed i = []) (h : SyncUntouched s t)
  /-- R241 -/
  | beat (hfit : Memory.fits s.cfg.bufCap s.buf.length (bytesPushed i).length = true)
      (ht : t = { s with buf := s.buf ++ bytesPushed i, chunkOpen := true })
  /-- R152 -/
  | append (hfit : Memory.fits s.cfg.bufCap s.buf.length (bytesPushed i).length = true)
      (ht : t = appendChunk (bytesPushed i) s)
  /-- R150, R242 -/
  | loop (hfit : Memory.fits s.cfg.bufCap s.buf.length (bytesPushed i).length = true) (r : Ret)
      (ht : t = { progress (loopFuel (s.buf ++ bytesPushed i).length) (startLoop (bytesPushed i) s) with ret := r })
  /-- R153 to R163 -/
  | microOp (hb : bytesPushed i = []) (p : LoopPos) (m : FsOp) (he : m.Enabled { s with pos := p }) (ht : t = m.apply s)
  /-- R243 -/
  | reset (hi : i = .reset) (ht : t = restartSequence (clearBlock s))

theorem FsOp.bytesPushed_instr (m : FsOp) : bytesPushed m.instr = [] := by cases m <;> rfl

/-- Outside the synchronizer an operation changes `dx`, `ret` or `fseq` only, and emits events that account for no byte. -/
theorem syncEffect {i : Instr} {s t : State} (h : exec i s = .next t) : SyncEffect i s t := by
  have hsilent : SyncUntouched s s := ⟨rfl, rfl, rfl, rfl, rfl, rfl, rfl, [], by simp⟩
  have hevent (e : Event) (he : e.bytesOut = 0) : SyncUntouched s (s.emit e) :=
    ⟨rfl, rfl, rfl, rfl, rfl, rfl, rfl, [e], rfl, by simp [he]⟩
  cases execEffect h with
  | answer hb r ht => exact .untouched hb (ht ▸ { hsilent with })
  | beat hfit ht => exact .beat hfit ht
  | append hfit ht => exact .append hfit ht
  | loop hfit r ht => exact .loop hfit r ht
  | microOp p m hi he ht => exact .microOp (hi ▸ m.bytesPushed_instr) p m he ht
  | transcode f hi ht => exact .untouched (hi ▸ rfl) (ht ▸ syncUntouched_transcode f s)
  | raise f c hi hc ht => exact .untouched (hi ▸ rfl) (ht ▸ { hevent (.err c.cls c) rfl with })
  | openRegs f h hi hok ht => exact .untouched (hi ▸ rfl) (ht ▸ { hsilent with })
  | collect c k v d hi hdx hsel ht => exact .untouched (hi ▸ rfl) (ht ▸ { hsilent with })
  | handOver f h d hi hdx hok hsel ht => exact .untouched (hi ▸ rfl) (ht ▸ { hevent (.samples _) rfl with })
  | reset hi ht => exact .reset hi ht
  | restart hi ht => exact .untouched (hi ▸ rfl) (ht ▸ { hevent .seqRestart rfl with })

/-! ### The configuration and the requests -/

theorem FsOp.apply_inp (m : FsOp) (s : State) : (m.apply s).inp = s.inp := by
  cases m <;> simp [FsOp.apply]

theorem progress_cfg_inp (n : Nat) (s : State) : (progress n s).cfg = s.cfg ∧ (progress n s).inp = s.inp :=
  progress_keeps (P := fun u => u.cfg = s.cfg ∧ u.inp = s.inp)
    (fun u m ⟨hcfg, hinp⟩ _ => ⟨(m.apply_cfg u).trans hcfg, (m.apply_inp u).trans hinp⟩) n s ⟨rfl, rfl⟩

/-- Settles O11: no effect on the synchronizer writes the configuration or the requests, and the others leave both alone. -/
theorem configurationNeverChanges : Obligations.ConfigurationNeverChanges := by
  intro i s t hexec
  cases syncEffect hexec with
  | untouched _ h => exact ⟨h.cfg, h.inp⟩
  | beat _ ht | append _ ht | reset _ ht => exact ⟨ht ▸ rfl, ht ▸ rfl⟩
  | loop _ r ht => exact ht ▸ progress_cfg_inp _ (startLoop (bytesPushed i) s)
  | microOp _ p m he ht => exact ht ▸ ⟨m.apply_cfg s, m.apply_inp s⟩

/-! ### The bytes (R54, R55, R166) -/

/-- The bytes missing from the front are exactly those that the new events account for. -/
def Accounts (s t : State) : Prop :=
  ∃ es, t.out = s.out ++ es ∧ bytesOut es ≤ s.buf.length ∧ t.buf = s.buf.drop (bytesOut es)

namespace Accounts

variable {s t u : State}

theorem of_untouched (hbuf : t.buf = s.buf) (hout : ∃ es, t.out = s.out ++ es ∧ bytesOut es = 0) : Accounts s t := by
  obtain ⟨es, hes, h0⟩ := hout
  exact ⟨es, hes, by omega, by rw [h0, hbuf, List.drop_zero]⟩

theorem of_silent (hbuf : t.buf = s.buf) (hout : t.out = s.out) : Accounts s t :=
  of_untouched hbuf ⟨[], by simp [hout]⟩

theorem trans (h : Accounts s t) (h' : Accounts t u) : Accounts s u := by
  obtain ⟨es, hout, hle, hbuf⟩ := h
  obtain ⟨es', hout', hle', hbuf'⟩ := h'
  rw [hbuf, List.length_drop] at hle'
  refine ⟨es ++ es', by rw [hout', hout, List.append_assoc], ?_, ?_⟩
  · rw [bytesOut_append]; omega
  · rw [hbuf', hbuf, List.drop_drop, bytesOut_append]

theorem length_le (h : Accounts s t) : t.buf.length ≤ s.buf.length := by
  obtain ⟨es, -, -, hbuf⟩ := h
  rw [hbuf, List.length_drop]
  exact Nat.sub_le _ _

/-- A discard accounts for its bytes by its warning (R156 to R159), FS.EMIT by its frame (R163). -/
theorem of_apply {p : LoopPos} {m : FsOp} (he : m.Enabled { s with pos := p }) : Accounts s (m.apply s) := by
  cases m with
  | waitHdr | search | sync0 | waitBody => exact of_silent rfl rfl
  | len n => exact of_silent (cacheLen_buf n s) (cacheLen_out n s)
  | dropK k =>
    obtain ⟨-, -, hk, -⟩ := he
    have hle : k + 12 ≤ s.buf.length := add_le_of_markerAt (findMarker_eq_some_iff.mp hk).1
    exact ⟨[.warn .dropToMarker k], rfl, (Nat.le_add_right k 12).trans hle, rfl⟩
  | keepTail j => exact ⟨[.warn .keepTail (s.buf.length - j)], rfl, Nat.sub_le _ _, rfl⟩
  | flush => exact ⟨[.warn .flushAll s.buf.length], rfl, le_rfl, rfl⟩
  | emit l =>
    obtain ⟨-, -, hl⟩ := he
    have hframe : bytesOut [.frame (s.buf.take l), transcodeEvent s.cfg s.fseq (s.buf.take l)] = l := by
      simpa using hl
    exact ⟨_, emitFrame_out l s, hframe.trans_le hl, by rw [hframe]; exact emitFrame_buf l s⟩

theorem of_progress (n : Nat) (s : State) : Accounts s (progress n s) :=
  progress_keeps (P := Accounts s) (fun u _ h hs => h.trans (of_apply (p := u.pos) (enabled_of_select hs))) n s
    (of_silent rfl rfl)

end Accounts

/-- Settles O13: every operation but RESET first appends its bytes, and then the bytes leave as the loop's events say. -/
theorem everyByteIsAccountedFor : Obligations.EveryByteIsAccountedFor := by
  intro i s t hreset hexec
  suffices h : Accounts { s with buf := s.buf ++ bytesPushed i } t by
    obtain ⟨es, hout, hle, hbuf⟩ := h
    exact ⟨es, hout, hle.trans_eq List.length_append, hbuf⟩
  have hnone (hb : bytesPushed i = []) : { s with buf := s.buf ++ bytesPushed i } = s := by rw [hb, List.append_nil]
  cases syncEffect hexec with
  | untouched hb h => rw [hnone hb]; exact .of_untouched h.buf h.out
  | beat _ ht | append _ ht => exact ht ▸ .of_silent rfl rfl
  | loop _ r ht => exact ht ▸ .of_progress _ (startLoop (bytesPushed i) s)
  | microOp hb p m he ht => rw [hnone hb, ht]; exact .of_apply he
  | reset hi => exact absurd hi hreset

/-! ### The wait for a body (R301) -/

/-- The wait for `l` bytes goes on, or it has ended with a frame of `l` of the bytes that were there. -/
def AwaitsOrCuts (l : Nat) (s t : State) : Prop :=
  t.cached = some l ∨ (l ≤ s.buf.length ∧ ∃ es f, t.out = s.out ++ es ∧ Event.frame f ∈ es ∧ f.length = l)

namespace AwaitsOrCuts

variable {l : Nat} {s t u : State}

/-- A wait that goes on may end later; a cut is not undone by later events. -/
theorem trans (hst : Accounts s t) (htu : Accounts t u) (h : AwaitsOrCuts l s t)
    (h' : t.cached = some l → AwaitsOrCuts l t u) : AwaitsOrCuts l s u := by
  have hle := hst.length_le
  obtain ⟨before, hbefore, -⟩ := hst
  obtain ⟨after, hafter, -⟩ := htu
  rcases h with hc | ⟨hl, es, f, hes, hmem, hf⟩
  · rcases h' hc with hc' | ⟨hl, es, f, hes, hmem, hf⟩
    · exact .inl hc'
    · exact .inr ⟨hl.trans hle, before ++ es, f, by rw [hes, hbefore, List.append_assoc],
        List.mem_append_right _ hmem, hf⟩
  · exact .inr ⟨hl, es ++ after, f, by rw [hafter, hes, List.append_assoc], List.mem_append_left _ hmem, hf⟩

/-- While a length is cached, only FS.EMIT ends the wait, and it cuts that many bytes. -/
theorem of_apply {p : LoopPos} {m : FsOp} (hc : s.cached = some l) (he : m.Enabled { s with pos := p }) :
    AwaitsOrCuts l s (m.apply s) := by
  cases m with
  | waitHdr | search | sync0 | dropK | keepTail | flush | waitBody => exact .inl hc
  | len n => exact .inl (by simp [FsOp.apply, cacheLen_cached, hc])
  | emit k =>
    obtain ⟨-, hk, hl⟩ := he
    obtain rfl : l = k := Option.some.inj (hc.symm.trans hk)
    exact .inr ⟨hl, _, s.buf.take l, emitFrame_out l s, List.mem_cons_self, List.length_take_of_le hl⟩

theorem of_progress (n : Nat) (hc : s.cached = some l) : AwaitsOrCuts l s (progress n s) := by
  refine (progress_keeps (P := fun u => Accounts s u ∧ AwaitsOrCuts l s u) ?_ n s ⟨.of_silent rfl rfl, .inl hc⟩).2
  rintro u m ⟨hacc, hwait⟩ hs
  have he := enabled_of_select hs
  have hstep : Accounts u (m.apply u) := .of_apply (p := u.pos) he
  exact ⟨hacc.trans hstep, trans hacc hstep hwait fun hc => of_apply (p := u.pos) hc he⟩

end AwaitsOrCuts

/-- Settles O15: outside the loop and its micro-operations only RESET touches the cached length. -/
theorem onlyResetEndsTheBodyEarly : Obligations.OnlyResetEndsTheBodyEarly := by
  intro i s t l hc hexec hreset
  have hpushed (h : AwaitsOrCuts l { s with buf := s.buf ++ bytesPushed i } t) :
      t.cached = some l ∨ (l ≤ s.buf.length + (bytesPushed i).length ∧
        ∃ es f, t.out = s.out ++ es ∧ Event.frame f ∈ es ∧ f.length = l) :=
    h.imp_right (And.imp_left fun hl => hl.trans_eq List.length_append)
  cases syncEffect hexec with
  | untouched hb h => exact .inl (h.cached.trans hc)
  | beat _ ht | append _ ht => exact .inl (ht ▸ hc)
  | loop _ r ht => exact hpushed (ht ▸ .of_progress (s := startLoop (bytesPushed i) s) _ hc)
  | microOp hb p m he ht => exact hpushed (by rw [hb, List.append_nil, ht]; exact .of_apply hc he)
  | reset hi => exact absurd hi hreset

end Sys2Proof.Machine
end

section
/-! Steps of the machine: what a step runs (R31, R103, R247), the loop as a run of steps (R151), and the invariant that every
operation and so every step keeps (R22, R24 to R26, R29, R31). -/

namespace Sys2Proof.Machine

open Sys2Proof

/-! ### The selected micro-operation -/

/-- A micro-operation that the loop position selects runs as the table's operation of its name. -/
theorem exec_instr_of_select {s : State} {m : FsOp} (h : select s = some m) : exec m.instr s = .next (m.apply s) := by
  have he := enabled_of_select h
  have hrun {p : LoopPos} (hp : s.pos = p) : runSelected p m.instr s = .next (m.apply s) :=
    hp ▸ runSelected_of_enabled (p := s.pos) he
  cases m with
  | waitHdr | search | sync0 | dropK | keepTail | flush | len | waitBody | emit => exact hrun he.1

theorem step_of_select {s : State} {m : FsOp} (h : select s = some m) : step s = exec m.instr s := by
  rw [step, fetch_of_select h]
  exact runChecked_of_wellFormed s (instr_wellFormed m)

/-- Settles O6: `fetch` gives the selected operation, and its own predicate holds where the loop stands. -/
theorem stepRunsTheSelectedMicroOp : Obligations.StepRunsTheSelectedMicroOp :=
  fun _ _ h => ⟨step_of_select h, exec_instr_of_select h⟩

/-- Settles O33: a round of the loop is a step, and at rest with nothing requested both stay. -/
theorem loopIsARunOfSteps : Obligations.LoopIsARunOfSteps := by
  intro n
  induction n with
  | zero => intro s _; rfl
  | succ n ih =>
    intro s hinp
    cases hs : select s with
    | some m =>
      have hstep : step s = .next (m.apply s) := (step_of_select hs).trans (exec_instr_of_select hs)
      rw [core_run_of_next n hstep, progress_of_select n hs]
      exact ih _ ((m.apply_inp s).trans hinp)
    | none =>
      have hstep : step s = .next s := by rw [step, fetch_of_rest hs hinp]
      rw [core_run_of_next n hstep, progress_of_rest _ hs, ih s hinp, progress_of_rest n hs]

/-! ### The owner's request -/

theorem step_of_request {s : State} {r : Request} {rest : List Request} (h : select s = none) (hi : s.inp = r :: rest) :
    step s = runChecked r.instr { s with inp := rest } := by
  rw [step, fetch_of_request h hi]

/-- A command word in 16 bits is placed as the owner's next request. -/
theorem withFetchWord_of_lt (s : State) {w : Nat} (hw : w < 2048) :
    s.withFetchWord 16 w = { s with pos := .idle, inp := .word (BitVec.ofNat 11 w) :: s.inp } := by
  have hreq : requestOfTableWord 16 w = some (.word (BitVec.ofNat 11 w)) := by
    simp [requestOfTableWord, decodeTableWord, decode, hw, Except.toOption]
  rw [State.withFetchWord, hreq]

/-- Settles O5: with nothing selected `fetch` takes the first request; only operands can make one illegal. -/
theorem stepRunsTheDecodedRequest : Obligations.StepRunsTheDecodedRequest := by
  intro s rest hs
  refine ⟨fun w hi => ?word, fun i hi hwf => ?legal, fun i hi hwf => ?illegal, fun hi => ?idle, fun w hw => ?placed⟩
  case word => exact (step_of_request hs hi).trans (runChecked_of_wellFormed _ (decodeCmd_wellFormed w))
  case legal => exact (step_of_request hs hi).trans (runChecked_of_wellFormed _ hwf)
  case illegal =>
    rw [step_of_request hs hi, runChecked, show (Request.op i).instr.wellFormed = false from hwf]
    rfl
  case idle => rw [step, fetch_of_rest hs hi]
  case placed =>
    rw [withFetchWord_of_lt s hw, step_of_request rfl rfl]
    exact runChecked_of_wellFormed _ (decodeCmd_wellFormed _)

/-! ### The invariant, part by part -/

theorem Inv.loopReady {s : State} (h : Inv s) : LoopReady s := ⟨h.searchedOk, h.stepCOk, h.stepDOk⟩

theorem inv_of_parts {s : State} (hsync : SyncOk s) (hready : LoopReady s) (hfseq : 1 ≤ s.fseq)
    (hmem : Memory.wf s.cfg.bufCap s.buf = true) : Inv s :=
  ⟨hsync.cachedOk, hsync.stOk, hready.searchedOk, hready.stepCOk, hready.stepDOk, hsync.quiet, hfseq, hmem⟩

/-- Settles O8: at reset nothing is cached and nothing buffered, and the loop is at rest. -/
theorem invariantHoldsAtReset : Obligations.InvariantHoldsAtReset :=
  inv_of_parts (.of_not_cached rfl rfl fun _ => by decide) (loopReady_of_idle rfl) le_rfl reset_wf

/-- Settles O10: the invariant holds the data that agree with the loop position. -/
theorem loopAlwaysSelects : Obligations.LoopAlwaysSelects :=
  fun _ hinv hp => exists_select_of_loopReady hinv.loopReady hp

/-! ### The parts along every operation -/

theorem transcode_with_pos (f : Bytes) (s : State) (p : LoopPos) :
    transcode f { s with pos := p } = { transcode f s with pos := p } := by
  simp only [transcode]
  cases checkFrame s.cfg f <;> rfl

/-- R163 before its transcode: the frame is cut, the cached length cleared, the frame emitted. -/
def cutFrame (l : Nat) (s : State) : State :=
  { s with
    buf := s.buf.drop l
    cached := none
    st := .accumulatingHeader
    out := s.out ++ [.frame (s.buf.take l)] }

theorem emitFrame_eq (l : Nat) (s : State) :
    emitFrame l s = { transcode (s.buf.take l) (cutFrame l s) with pos := .testA } := rfl

/-- Where the loop stood matters to no micro-operation's effect. -/
theorem FsOp.apply_with_pos (m : FsOp) (s : State) (p : LoopPos) : m.apply { s with pos := p } = m.apply s := by
  cases m with
  | waitHdr | search | sync0 | dropK | keepTail | flush | waitBody => rfl
  | len n => simp only [FsOp.apply, cacheLen]
  | emit l =>
    exact congrArg (fun u : State => { u with pos := .testA }) (transcode_with_pos (s.buf.take l) (cutFrame l s) p)

theorem pos_ne_idle_of_enabled {s : State} {m : FsOp} (he : m.Enabled s) : s.pos ≠ .idle := fun hp => by
  have hs := select_of_enabled he
  simp [select, selectAt, hp] at hs

section

variable {i : Instr} {s t : State}

theorem SyncUntouched.syncOk (hu : SyncUntouched s t) (h : SyncOk s) : SyncOk t where
  cachedOk l hl := by
    rw [hu.cfg, hu.buf]
    exact h.cachedOk l (hu.cached ▸ hl)
  stOk := by
    rw [State.lv, hu.st, hu.cached]
    exact h.stOk
  quiet := by
    rw [hu.pos, hu.chunkOpen, Quiescent, hu.cached, hu.buf]
    exact h.quiet

theorem SyncUntouched.loopReady (hu : SyncUntouched s t) (h : LoopReady s) : LoopReady t where
  searchedOk := by
    rw [hu.pos, hu.buf]
    exact h.searchedOk
  stepCOk := by
    rw [hu.pos, hu.buf]
    exact h.stepCOk
  stepDOk := by
    rw [hu.pos, State.lv, hu.cached]
    exact h.stepDOk

/-- More bytes behind the buffer agree with every position that the bytes before them agreed with. -/
theorem LoopReady.beat (h : LoopReady s) (chunk : Bytes) :
    LoopReady { s with buf := s.buf ++ chunk, chunkOpen := true } where
  searchedOk hp := (h.searchedOk hp).trans (by simp)
  stepCOk hp := by
    obtain ⟨hl, hm⟩ := h.stepCOk hp
    exact ⟨hl.trans (by simp), (List.take_append_of_le_length (by omega)).trans hm⟩
  stepDOk := h.stepDOk

/-- R24 to R26. -/
theorem syncOk_of_exec (hexec : exec i s = .next t) (h : SyncOk s) : SyncOk t := by
  cases syncEffect hexec with
  | untouched _ hu => exact hu.syncOk h
  | beat _ ht | append _ ht => exact ht ▸ ⟨fun l hl => (h.cachedOk l hl).append _, h.stOk, nofun⟩
  | loop _ r ht =>
    exact ht ▸ (progress_keeps (fun _ _ hu hs => hu.apply (enabled_of_select hs)) _ _ (h.start _)).with_ret r
  | microOp _ p m he ht =>
    have hpos : SyncOk { s with pos := p } := ⟨h.cachedOk, h.stOk, fun hp => absurd hp (pos_ne_idle_of_enabled he)⟩
    exact ht ▸ m.apply_with_pos s p ▸ hpos.apply he
  | reset _ ht => exact ht ▸ .of_not_cached rfl rfl fun _ => show 0 < 80 by decide

/-- R31. -/
theorem loopReady_of_exec (hexec : exec i s = .next t) (h : LoopReady s) : LoopReady t := by
  cases syncEffect hexec with
  | untouched _ hu => exact hu.loopReady h
  | beat _ ht => exact ht ▸ h.beat _
  | append _ ht => exact loopReady_of_testA (ht ▸ rfl)
  | loop _ r ht =>
    exact loopReady_of_idle (ht ▸ progress_loopFuel_pos (s := startLoop (bytesPushed i) s) rfl)
  | microOp _ p m he ht => exact ht ▸ m.apply_with_pos s p ▸ loopReady_apply (select_of_enabled he)
  | reset _ ht => exact loopReady_of_idle (ht ▸ rfl)

/-- R29. -/
theorem one_le_fseq_of_exec (hexec : exec i s = .next t) (h : 1 ≤ s.fseq) : 1 ≤ t.fseq := by
  by_cases hreset : i = .reset
  · subst hreset
    exact Host.Outcome.next.inj hexec ▸ le_rfl
  · by_cases hrestart : i = .cpRestart
    · subst hrestart
      exact Host.Outcome.next.inj hexec ▸ le_rfl
    · obtain ⟨es, -, hfseq, -⟩ := fseqCountsTheRecords i s t hreset hrestart hexec
      omega

/-- An operation that answers a next state pushes no byte, or as many as fit (R72). -/
theorem fits_of_exec (hexec : exec i s = .next t) (h : Memory.wf s.cfg.bufCap s.buf = true) :
    Memory.fits s.cfg.bufCap s.buf.length (bytesPushed i).length = true := by
  have hnone (hb : bytesPushed i = []) : Memory.fits s.cfg.bufCap s.buf.length (bytesPushed i).length = true := by
    rw [hb, fits_iff]
    exact (wf_iff _ _).mp h
  cases syncEffect hexec with
  | beat hfit _ | append hfit _ | loop hfit _ _ => exact hfit
  | untouched hb _ | microOp hb _ _ _ _ => exact hnone hb
  | reset hi => exact hnone (hi ▸ rfl)

/-- R22: what was pushed has fitted, and then bytes only leave. -/
theorem wf_of_exec (hexec : exec i s = .next t) (h : Memory.wf s.cfg.bufCap s.buf = true) :
    Memory.wf t.cfg.bufCap t.buf = true := by
  obtain ⟨hcfg, -⟩ := configurationNeverChanges i s t hexec
  rw [hcfg]
  by_cases hreset : i = .reset
  · subst hreset
    exact Host.Outcome.next.inj hexec ▸ wf_nil _
  · obtain ⟨es, -, -, hbuf⟩ := everyByteIsAccountedFor i s t hreset hexec
    rw [hbuf]
    exact dropFront_wf _ (append_wf (fits_of_exec hexec h))

/-- Every operation keeps the invariant. -/
theorem inv_of_exec (hexec : exec i s = .next t) (h : Inv s) : Inv t :=
  inv_of_parts (syncOk_of_exec hexec h.syncOk) (loopReady_of_exec hexec h.loopReady) (one_le_fseq_of_exec hexec h.fseqOk)
    (wf_of_exec hexec h.memOk)

end

theorem Inv.with_inp {s : State} (h : Inv s) (inp : List Request) : Inv { s with inp := inp } :=
  ⟨h.cachedOk, h.stOk, h.searchedOk, h.stepCOk, h.stepDOk, h.quiet, h.fseqOk, h.memOk⟩

theorem runChecked_next {i : Instr} {s t : State} (h : runChecked i s = .next t) : exec i s = .next t := by
  unfold runChecked at h
  split at h
  · exact h
  · cases h

/-- Settles O9: a step idles, or runs an operation on the state, with or without its first request. -/
theorem stepKeepsInvariant : Obligations.StepKeepsInvariant := by
  intro s t hinv hstep
  cases hs : select s with
  | some m => exact inv_of_exec (step_of_select hs ▸ hstep) hinv
  | none =>
    cases hi : s.inp with
    | nil =>
      rw [step, fetch_of_rest hs hi] at hstep
      exact Host.Outcome.next.inj hstep ▸ hinv
    | cons r rest =>
      rw [step_of_request hs hi] at hstep
      exact inv_of_exec (runChecked_next hstep) (hinv.with_inp rest)

end Sys2Proof.Machine
end

section
/-! R3, R318: the events emitted before an operation have no part in what it does.  Every function of the model commutes with
putting earlier events in front of the output. -/

namespace Sys2Proof.Machine

open Sys2Proof

/-- The state in which the events `o` were emitted before all others. -/
def State.prepend (o : List Event) (s : State) : State := { s with out := o ++ s.out }

/-- A function of the state applied to the next state, if there is one. -/
def mapNext (g : State → State) (x : Host.Outcome State Fault Refusal) : Host.Outcome State Fault Refusal :=
  match x with
  | .next s => .next (g s)
  | .fault f => .fault f
  | .refused r => .refused r

section

variable (o : List Event) (s : State)

/-! ### The shared operations -/

theorem emit_prepend (e : Event) : (s.prepend o).emit e = (s.emit e).prepend o := by
  simp [State.emit, State.prepend]

theorem raise_prepend (c : ErrCause) : raise c (s.prepend o) = (raise c s).prepend o :=
  congrArg (fun u : State => { u with dx := none }) (emit_prepend o s _)

theorem handOver_prepend (h : Header) (r : DxRegs) : handOver h r (s.prepend o) = (handOver h r s).prepend o :=
  congrArg (fun u : State => { u with fseq := s.fseq + 1, dx := none }) (emit_prepend o s _)

theorem restartSequence_prepend : restartSequence (s.prepend o) = (restartSequence s).prepend o :=
  congrArg (fun u : State => { u with fseq := 1 }) (emit_prepend o s _)

theorem transcode_prepend (f : Bytes) : transcode f (s.prepend o) = (transcode f s).prepend o := by
  simp only [transcode, show (s.prepend o).cfg = s.cfg from rfl]
  cases checkFrame s.cfg f with
  | error c => exact raise_prepend o s c
  | ok h => exact handOver_prepend o s h _

/-! ### The loop -/

theorem cutFrame_prepend (l : Nat) : cutFrame l (s.prepend o) = (cutFrame l s).prepend o := by
  simp [cutFrame, State.prepend]

theorem FsOp.apply_prepend (m : FsOp) : m.apply (s.prepend o) = (m.apply s).prepend o := by
  cases m with
  | waitHdr | search | sync0 | waitBody => rfl
  | dropK k => exact congrArg (fun u : State => { u with buf := s.buf.drop k, pos := .testA }) (emit_prepend o s _)
  | keepTail j =>
    exact congrArg (fun u : State => { u with buf := s.buf.drop (s.buf.length - j), pos := .idle }) (emit_prepend o s _)
  | flush =>
    exact congrArg (fun u : State => { u with buf := s.buf.drop s.buf.length, pos := .testA }) (emit_prepend o s _)
  | len n =>
    simp only [FsOp.apply, cacheLen, show (s.prepend o).cached = s.cached from rfl]
    cases s.cached <;> rfl
  | emit l =>
    simp only [FsOp.apply, emitFrame_eq, cutFrame_prepend, transcode_prepend]
    rfl

theorem progress_prepend (n : Nat) : progress n (s.prepend o) = (progress n s).prepend o := by
  induction n generalizing s with
  | zero => rfl
  | succ n ih =>
    have hsel : select (s.prepend o) = select s := rfl
    cases hs : select s with
    | none => rw [progress_of_rest _ hs, progress_of_rest _ (hsel.trans hs)]
    | some m => rw [progress_of_select _ hs, progress_of_select _ (hsel.trans hs), FsOp.apply_prepend, ih]

theorem runLoop_prepend : runLoop (s.prepend o) = (runLoop s).prepend o :=
  congrArg (fun u : State => { u with ret := s.ret }) (progress_prepend o { s with pos := .testA } _)

/-! ### The operations -/

theorem withHeader_prepend (v : View) (field : Header → Ret) :
    withHeader v (s.prepend o) field = mapNext (State.prepend o) (withHeader v s field) := by
  have hv : viewHeader v (s.prepend o) = viewHeader v s := by cases v <;> rfl
  rw [withHeader, withHeader, hv]
  cases viewHeader v s <;> rfl

theorem runSelected_prepend (p : LoopPos) (i : Instr) :
    runSelected p i (s.prepend o) = mapNext (State.prepend o) (runSelected p i s) := by
  have hsel : selectAt p (s.prepend o) = selectAt p s := by cases p <;> rfl
  rw [runSelected, runSelected, hsel]
  cases selectAt p s with
  | none => rfl
  | some m =>
    simp only [apply_ite (mapNext _), FsOp.apply_prepend]
    rfl

/-- A guard that does not read the events chooses the same outcome. -/
theorem guard_prepend {p : Prop} [Decidable p] {t : State} {r : Refusal} {u : State} (h : u = t.prepend o) :
    (if p then .next u else .refused r : Host.Outcome State Fault Refusal) =
      mapNext (State.prepend o) (if p then .next t else .refused r) := by
  rw [apply_ite (mapNext _), h]
  rfl

theorem exec_prepend (i : Instr) : exec i (s.prepend o) = mapNext (State.prepend o) (exec i s) := by
  cases i with
  | nop | rsvd | dxOffset | dxAddr | dxSext24 => rfl
  | pushb d => exact guard_prepend o rfl
  | pushbL d => exact guard_prepend o (runLoop_prepend o { s with buf := s.buf ++ [d], chunkOpen := false })
  | reset => exact congrArg Host.Outcome.next (restartSequence_prepend o (clearBlock s))
  | push chunk =>
    cases chunk with
    | nil => rfl
    | cons b rest =>
      exact guard_prepend o (congrArg (fun u : State => { u with ret := .consumed (b :: rest).length })
        (runLoop_prepend o { appendChunk (b :: rest) s with chunkOpen := false }))
  | fsAppend chunk => exact guard_prepend o rfl
  | fsWaithdr | fsSearch | fsSync0 | fsDropk | fsKeeptail | fsFlush | fsLen | fsWaitbody | fsEmit =>
    exact runSelected_prepend o s _ _
  | hpMarker | hpHdrsize | hpWidth | hpIntoff | hpLowpwr | hpLowrate | hpCfg | hpChen | hpChmap | hpBsamples | hpSbytes
  | hpFlen | hpStime | hpMisc | hpRevboard | hpGps | hpGpsfix | hpPosdisc | hpPosstr | hpTail | hpInterval =>
    exact withHeader_prepend o s _ _
  | hpBatt r | hpTemp r | hpGpsage r =>
    cases r with
    | given => rfl
    | header => exact withHeader_prepend o s _ _
  | dxTranscode f => exact congrArg Host.Outcome.next (transcode_prepend o s f)
  | dxCheck f =>
    simp only [exec, execDxCheck, show (s.prepend o).cfg = s.cfg from rfl]
    cases checkFrame s.cfg f with
    | error c =>
      exact congrArg (fun u : State => Host.Outcome.next { u with ret := .checked (some c) }) (raise_prepend o s c)
    | ok h => rfl
  | dxLoad3 f a =>
    simp only [exec, execDxLoad3]
    cases load3 f a <;> rfl
  | dxLoad4 f a =>
    simp only [exec, execDxLoad4, show (s.prepend o).cfg = s.cfg from rfl]
    cases load4 s.cfg.nativeOrder f a <;> rfl
  | cpCollect c k v =>
    simp only [exec, execCpCollect, show (s.prepend o).dx = s.dx from rfl]
    cases s.dx with
    | none => rfl
    | some d => exact guard_prepend o rfl
  | cpOut f =>
    simp only [exec, execCpOut, show (s.prepend o).dx = s.dx from rfl, show (s.prepend o).cfg = s.cfg from rfl]
    cases s.dx with
    | none => rfl
    | some d =>
      cases checkFrame s.cfg f with
      | error c => rfl
      | ok h => exact guard_prepend o (handOver_prepend o s h d)
  | cpRestart => exact congrArg Host.Outcome.next (restartSequence_prepend o s)

end

/-- Settles O12: the operation runs on the state without earlier events, and those are put in front afterwards. -/
theorem noFeedbackFromSinks : Obligations.NoFeedbackFromSinks := by
  intro i s o
  have hsplit : ∃ x, ∀ o, exec i { s with out := o } = mapNext (State.prepend o) x :=
    ⟨exec i { s with out := [] }, fun o => by rw [← exec_prepend, State.prepend, List.append_nil]⟩
  obtain ⟨x, hx⟩ := hsplit
  have hs : exec i s = mapNext (State.prepend s.out) x := hx s.out
  rw [hs, hx o]
  cases x with
  | next t =>
    refine ⟨fun u hu => ?_, (fun _ h => nomatch h), (fun _ h => nomatch h)⟩
    obtain rfl := Host.Outcome.next.inj hu
    exact ⟨t.out, rfl, rfl⟩
  | fault f => exact ⟨(fun _ h => nomatch h), fun _ h => h, (fun _ h => nomatch h)⟩
  | refused r => exact ⟨(fun _ h => nomatch h), (fun _ h => nomatch h), fun _ h => h⟩

end Sys2Proof.Machine
end

section
/-! The command port's operations that run the loop or clear the block (spec 44_control_ops): PUSHB.L, PUSH as its beats, and
RESET. -/

namespace Sys2Proof.Machine

open Sys2Proof

/-- Settles O18: the word carries its byte in the data bits, and from test (a) the loop comes to rest within its fuel. -/
theorem pushbLRunsTheLoopToRest : Obligations.PushbLRunsTheLoopToRest := by
  intro d s
  refine ⟨decodeCmd_pushbL_word d, fun hfit => ?fits, fun hfull => ?full⟩
  case fits =>
    refine ⟨loopFuel (s.buf ++ [d]).length, _, rfl, progress_loopFuel_pos rfl, ?_⟩
    rw [exec_pushbL, if_pos ((fits_iff _ _ _).mpr hfit)]
    rfl
  case full => rw [exec_pushbL]; exact append_refused_iff.mpr hfull

/-! ### PUSH and its beats -/

theorem exec_pushb_of_fits {d : Byte} {s : State} (hfit : Memory.fits s.cfg.bufCap s.buf.length 1 = true) :
    exec (.pushb d) s = .next { s with buf := s.buf ++ [d], chunkOpen := true } := if_pos hfit

theorem exec_pushbL_of_fits {d : Byte} {s : State} (hfit : Memory.fits s.cfg.bufCap s.buf.length 1 = true) :
    exec (.pushbL d) s = .next (runLoop { s with buf := s.buf ++ [d], chunkOpen := false }) := if_pos hfit

/-- R72: where a chunk fits, its first byte fits, and the rest fits behind it. -/
theorem fits_cons {cap : Option Nat} {b : Bytes} {x : Byte} {rest : Bytes}
    (h : Memory.fits cap b.length (x :: rest).length = true) :
    Memory.fits cap b.length 1 = true ∧ Memory.fits cap (b ++ [x]).length rest.length = true := by
  simp only [fits_iff, List.length_cons, List.length_append, List.length_nil] at h ⊢
  constructor <;> intro c hc <;> have := h c hc <;> omega

/-- The beats of a chunk that fits append it byte by byte, and the last one closes it and runs the loop (R106). -/
theorem runInstrs_beats {chunk : Bytes} {s : State} (hne : chunk ≠ [])
    (hfit : Memory.fits s.cfg.bufCap s.buf.length chunk.length = true) :
    runInstrs (beats chunk) s = .next (runLoop { s with buf := s.buf ++ chunk, chunkOpen := false }) := by
  induction chunk using beats.induct generalizing s with
  | case1 => exact absurd rfl hne
  | case2 b => simp only [beats, runInstrs, exec_pushbL_of_fits hfit]
  | case3 b c rest ih =>
    obtain ⟨hfirst, hrest⟩ := fits_cons hfit
    simp only [beats, runInstrs, exec_pushb_of_fits hfirst]
    rw [ih (List.cons_ne_nil c rest) hrest, List.append_assoc]
    rfl

/-- Settles O21: a PUSH that answers has fitted; it and its beats run the loop on the same state. -/
theorem pushEqualsItsBeats : Obligations.PushEqualsItsBeats := by
  intro chunk s t hne hexec
  rw [exec_push_of_ne_nil hne] at hexec
  obtain ⟨hfit, rfl⟩ := guard_next hexec
  rw [runInstrs_beats hne hfit]
  rfl

/-! ### RESET -/

/-- Settles O22: the clear gives every element its reset value, and bits 10:9 make `op` 10. -/
theorem resetClearsTheBlock : Obligations.ResetClearsTheBlock := by
  have hexec (s : State) : exec .reset s = .next (restartSequence (clearBlock s)) := rfl
  exact ⟨hexec, fun _ hw => decodeCmd_of_op_two (cmdOp_of_and_mask hw)⟩

end Sys2Proof.Machine
end

section
/-! Where a micro-operation of the loop is refused (R100, R103), and the marker's self-overlap (R83). -/

namespace Sys2Proof.Machine

open Sys2Proof

/-- A micro-operation asked for alone is refused where no predicate of its table row holds. -/
theorem runSelected_of_not_enabled {p : LoopPos} {i : Instr} {s : State}
    (h : ∀ m : FsOp, m.instr = i → ¬ m.Enabled { s with pos := p }) : runSelected p i s = .refused .notSelected := by
  unfold runSelected
  cases hs : selectAt p s with
  | none => rfl
  | some m => exact if_neg fun hi => h m hi (enabled_of_select (s := { s with pos := p }) hs)

/-- Settles O32: each clause contradicts the predicate of the operation's row. -/
theorem microOpsNeedTheirSelection : Obligations.MicroOpsNeedTheirSelection := by
  intro s
  refine ⟨fun h => ?waithdr, fun h => ?search, fun h => ?sync0, fun h => ?dropk, fun h => ?keeptail, fun h => ?flush,
    fun h => ?len, fun h => ?waitbody, fun h => ?emit⟩
  all_goals
    refine runSelected_of_not_enabled fun m hm he => ?_
    cases m <;> cases hm
  case waithdr => exact he.2.not_ge h
  case search => exact h.not_ge he.2
  case sync0 =>
    obtain ⟨-, hl, hk⟩ := he
    exact h.elim (fun h => h.not_ge hl) (fun h => h hk)
  case dropk k =>
    obtain ⟨-, hl, hk, h0⟩ := he
    refine h.elim (fun h => h.not_ge hl) (fun h => h (k - 1) ?_)
    rw [Nat.sub_add_cancel h0]
    exact hk
  case keeptail j =>
    obtain ⟨-, hl, hk, rfl, h0⟩ := he
    exact h.elim (fun h => h.not_ge hl) fun h => h.elim (fun h => h hk) h0.ne'
  case flush =>
    obtain ⟨-, hl, hk, hj⟩ := he
    exact h.elim (fun h => h.not_ge hl) fun h => h.elim (fun h => h hk) fun h => h.ne' hj
  case len n =>
    obtain ⟨-, hk, x, hx, -⟩ := he
    exact h.elim (fun h => h.not_ge (headerOf_eq_some.mp hx).1) (fun h => h hk)
  case waitbody =>
    obtain ⟨-, l, hc, hl⟩ := he
    rcases h with h | ⟨k, hk, hle⟩
    · cases h.symm.trans hc
    · cases hk.symm.trans hc
      exact hl.not_ge hle
  case emit l =>
    obtain ⟨-, hc, hl⟩ := he
    rcases h with h | ⟨k, hk, hlt⟩
    · cases h.symm.trans hc
    · cases hk.symm.trans hc
      exact hlt.not_ge hl

/-- R83: no proper trailing part of the marker is the start of the marker. -/
theorem drop_marker_ne : ∀ d < 12, 0 < d → marker.drop d ≠ marker.take (12 - d) := by decide

/-- Settles O28: two occurrences that overlap would make the end of the first the start of the second. -/
theorem markersNeverOverlap : Obligations.MarkersNeverOverlap := by
  intro b i k hik hi hk
  by_contra hover
  refine drop_marker_ne (k - i) (by omega) (by omega) ?_
  calc marker.drop (k - i)
    _ = ((b.drop i).take 12).drop (k - i) := by rw [hi]
    _ = (b.drop k).take (12 - (k - i)) := by rw [List.drop_take, List.drop_drop, Nat.add_sub_cancel' hik.le]
    _ = ((b.drop k).take 12).take (12 - (k - i)) := by rw [List.take_take, Nat.min_eq_left (Nat.sub_le _ _)]
    _ = marker.take (12 - (k - i)) := by rw [hk]

end Sys2Proof.Machine
end

section
/-! The header parser's formulas and classes (R121 to R130), and what every accessor has in common: it answers a function of
its own field of the view's header (R61, R133, R134). -/

namespace Sys2Proof.Machine

open Sys2Proof

/-! ### Raw, formula and class accessors -/

/-- Settles O39: HP.REVBOARD answers the field that HP.MISC answers. -/
theorem revisionAndBoardAreExposedRaw : Obligations.RevisionAndBoardAreExposedRaw := by
  intro v s f hf hl
  obtain ⟨-, hmisc, -⟩ := rawRangeAccessors v s f hf hl
  have hsame : exec (.hpRevboard v) s = exec (.hpMisc v) s := rfl
  exact ⟨hsame.trans hmisc, hsame⟩

theorem batteryVolts_eq (raw : Nat) : batteryVolts raw = (raw : Rat) * 25 / 512 := by
  rw [batteryVolts]; ring

theorem tempCelsius_eq (raw : Nat) : tempCelsius raw = (625 * (raw : Rat) - 76800) / 1280 := by
  rw [tempCelsius]; ring

theorem PosRat.val_pos (q : PosRat) : 0 < q.val := by
  rw [PosRat.val]; positivity

/-- R130: an interval is positive. -/
theorem IntervalLut.lookup_pos (t : IntervalLut) (w r : Bool) : 0 < t.lookup w r := by
  cases w <;> cases r <;> exact PosRat.val_pos _

theorem headerOf_intervalMs {f : Bytes} {h : Header} (hh : headerOf f = some h) (cfg : Config) :
    h.intervalMs cfg = cfg.intervalLut.lookup (bitOf (byteAt f 13) 7) (bitOf (byteAt f 13) 4) :=
  congrArg₂ cfg.intervalLut.lookup (headerOf_bit hh 13 7 _) (headerOf_bit hh 13 4 _)

/-- Settles O40: the formulas are equal rationals, and their raw readings are the header's. -/
theorem formulaAccessors : Obligations.FormulaAccessors := by
  refine ⟨fun raw s => ⟨?battGiven, ?tempGiven⟩, fun v s f hf hl => ?_⟩
  case battGiven => rw [← batteryVolts_eq]; rfl
  case tempGiven => rw [← tempCelsius_eq]; rfl
  obtain ⟨h, hh, hv⟩ := exists_header_of_view hf hl
  have hmisc : h.miscRaw = (f.drop 26).take 7 := headerOf_range hh (by decide)
  refine ⟨?batt, ?temp, _, rfl, IntervalLut.lookup_pos _ _ _, ?interval⟩
  case batt => exact withHeader_of_view hv (by rw [hmisc, batteryVolts_eq])
  case temp => exact withHeader_of_view hv (by rw [hmisc, tempCelsius_eq])
  case interval => exact withHeader_of_view hv (by rw [Header.rateHz, headerOf_intervalMs hh])

theorem ageClass_none (key : Bytes) : ageClass key none = .unavailable := rfl

theorem ageClass_of_lt (key : Bytes) {a : Rat} (h : a < 10) : ageClass key (some a) = .fresh := if_pos h

theorem ageClass_of_gt (key : Bytes) {a : Rat} (h : 10 < a) : ageClass key (some a) = .old :=
  (if_neg h.not_gt).trans (if_pos h)

/-- R127: the classes of the 256 values of the discriminator. -/
theorem posClass_iff {d : Nat} (hd : d < 256) :
    (posClass d = .invalid ↔ d = 255) ∧ (posClass d = .position ↔ d = 0) ∧ (posClass d = .compass ↔ d = 1) ∧
      (posClass d = .undefined ↔ 2 ≤ d ∧ d ≤ 254) := by
  unfold posClass
  split_ifs <;> simp <;> omega

/-- Settles O41: the classes of an age and of the discriminator, given or read off the header. -/
theorem classAccessors : Obligations.ClassAccessors := by
  refine ⟨fun s a => ⟨rfl, fun hlt => ?fresh, fun hgt => ?old, _, rfl⟩, fun v s f hf hl => ?_⟩
  case fresh => rw [← ageClass_of_lt [] hlt]; rfl
  case old => rw [← ageClass_of_gt [] hgt]; rfl
  obtain ⟨h, hh, hv⟩ := exists_header_of_view hf hl
  have hgps : h.gpsRaw = (f.drop 33).take 20 := headerOf_range hh (by decide)
  have hdisc : h.posDisc = (byteAt f 53).toNat := congrArg u8 (headerOf_byte hh 53 _)
  refine ⟨?fix, ⟨_, withHeader_of_view hv rfl, ?unavailable, ?freshHeader, ?oldHeader⟩, _, _, rfl, ?posdisc,
    posClass_iff (byteAt f 53).isLt⟩
  case fix => exact withHeader_of_view hv (by rw [hgps])
  case unavailable => intro hage; rw [hgps, hage, ageClass_none]
  case freshHeader => intro a hage hlt; rw [hgps, hage, ageClass_of_lt _ hlt]
  case oldHeader => intro a hage hgt; rw [hgps, hage, ageClass_of_gt _ hgt]
  case posdisc => exact withHeader_of_view hv (by rw [hdisc])

/-! ### Every accessor and its field -/

/-- Headers that agree on a range agree on each byte in it. -/
theorem byte_eq_of_range_eq {h h' : Header} {off width i : Nat} (hr : h.range off width = h'.range off width)
    (hle : off ≤ i) (hlt : i < off + width) (hi : i < 80) : h.byte i hi = h'.byte i hi := by
  have hget (x : Header) : (x.range off width)[i - off]? = some (x.byte i hi) := by
    rw [Header.range, List.getElem?_take_of_lt (by omega), List.getElem?_drop, Nat.add_sub_cancel' hle]
    exact List.getElem?_eq_getElem _
  exact Option.some.inj ((hget h).symm.trans (hr ▸ hget h'))

/-- An accessor of a view answers a function of `width` header bytes from `off` on, the bytes that select it. -/
structure ReadsField (mk : View → Instr) (off width : Nat) : Prop where
  hdrField_eq : hdrField (mk .buf) = some (off, width)
  bound : off + width ≤ 80
  answer : ∀ s : State, ∃ ret : Header → Ret, (∀ v, exec (mk v) s = withHeader v s ret) ∧
    ∀ h h' : Header, h.range off width = h'.range off width → ret h = ret h'

namespace ReadsField

variable {mk : View → Instr}

theorem of_range (off width : Nat) (hf : hdrField (mk .buf) = some (off, width)) (hle : off + width ≤ 80)
    (g : State → Bytes → Ret)
    (hexec : ∀ v s, exec (mk v) s = withHeader v s fun h => g s (h.range off width)) : ReadsField mk off width :=
  ⟨hf, hle, fun s => ⟨_, fun v => hexec v s, fun _ _ hr => congrArg (g s) hr⟩⟩

theorem of_byte (i : Nat) (hi : i < 80) (hf : hdrField (mk .buf) = some (i, 1)) (g : State → Byte → Ret)
    (hexec : ∀ v s, exec (mk v) s = withHeader v s fun h => g s (h.byte i hi)) : ReadsField mk i 1 :=
  ⟨hf, hi, fun s => ⟨_, fun v => hexec v s,
    fun _ _ hr => congrArg (g s) (byte_eq_of_range_eq hr le_rfl (Nat.lt_succ_self i) hi)⟩⟩

/-- R110 compares the range of the marker. -/
theorem markerOk_eq (h : Header) : h.markerOk = decide (h.range 0 12 = marker) := by
  have hread : memRead h.raw 0 12 = some (h.range 0 12) := if_pos (by rw [h.size]; decide)
  rw [Header.markerOk, hread, decide_eq_decide, Option.some.injEq]

theorem hpMarker : ReadsField .hpMarker 0 12 :=
  ⟨rfl, by decide, fun _ => ⟨_, fun _ => rfl, fun h h' hr => by rw [markerOk_eq, markerOk_eq, hr]⟩⟩

/-- R116 reads the bytes 15 and 16, R118 the byte 17 too. -/
theorem blockSamples_congr {h h' : Header} {width : Nat} (hw : 2 ≤ width)
    (hr : h.range 15 width = h'.range 15 width) (cfg : Config) : h.blockSamples cfg = h'.blockSamples cfg :=
  congrArg₂ (u16Native cfg.nativeOrder) (byte_eq_of_range_eq hr (by omega) (by omega) _)
    (byte_eq_of_range_eq hr (by omega) (by omega) _)

theorem hpBsamples : ReadsField .hpBsamples 15 2 :=
  ⟨rfl, by decide, fun s => ⟨_, fun _ => rfl, fun _ _ hr => congrArg Ret.nat (blockSamples_congr le_rfl hr s.cfg)⟩⟩

theorem hpFlen : ReadsField .hpFlen 15 3 :=
  ⟨rfl, by decide, fun s => ⟨_, fun _ => rfl, fun h h' hr => by
    have hbs := blockSamples_congr (by decide) hr s.cfg
    have hsb : h.sampleBytes = h'.sampleBytes := congrArg u8 (byte_eq_of_range_eq hr (by decide) (by decide) _)
    rw [Header.frameLen, Header.frameLen, hbs, hsb]⟩⟩

theorem hpChen (c : Channel) : ReadsField (.hpChen · c) 14 1 :=
  of_byte 14 (by decide) rfl
    (fun _ b => .chEn (chEn (b.extractLsb' 0 6) c) (b.extractLsb' 0 6) (popcount (b.extractLsb' 0 6))) fun _ _ => rfl

/-- R113, R114, R131: a flag is one bit of byte 13. -/
theorem of_flag (j : Nat) (hf : hdrField (mk .buf) = some (13, 1))
    (hexec : ∀ v s, exec (mk v) s = withHeader v s fun h => .flag ((h.byte 13).getLsbD j)) : ReadsField mk 13 1 :=
  of_byte 13 (by decide) hf (fun _ b => .flag (b.getLsbD j)) hexec

/-- R119 to R129: an accessor of a raw range answers it. -/
theorem of_raw (off width : Nat) (hf : hdrField (mk .buf) = some (off, width))
    (hle : off + width ≤ 80) (hexec : ∀ v s, exec (mk v) s = withHeader v s fun h => .bytes (h.range off width)) :
    ReadsField mk off width :=
  of_range off width hf hle (fun _ b => .bytes b) hexec

end ReadsField

/-- The table's accessors in its order, each as a function of its field. -/
theorem exists_readsField : ∀ mk ∈ viewAccessors, ∃ off width, ReadsField mk off width := by
  simp only [viewAccessors, List.forall_mem_cons]
  exact ⟨⟨_, _, .hpMarker⟩,
    ⟨_, _, .of_byte 12 (by decide) rfl (fun _ b => .hdrSize (u8 b) (u8 b == 80)) fun _ _ => rfl⟩,
    ⟨_, _, .of_byte 13 (by decide) rfl (fun s b => .width (s.cfg.wOfBit7.apply (b.getLsbD 7))) fun _ _ => rfl⟩,
    ⟨_, _, .of_flag 6 rfl fun _ _ => rfl⟩,
    ⟨_, _, .of_flag 5 rfl fun _ _ => rfl⟩,
    ⟨_, _, .of_flag 4 rfl fun _ _ => rfl⟩,
    ⟨_, _, .of_byte 13 (by decide) rfl (fun _ b => .cfg (u8 b) (b.extractLsb' 0 4)) fun _ _ => rfl⟩,
    ⟨_, _, .hpChen 0⟩, ⟨_, _, .hpChen 1⟩, ⟨_, _, .hpChen 2⟩, ⟨_, _, .hpChen 3⟩, ⟨_, _, .hpChen 4⟩, ⟨_, _, .hpChen 5⟩,
    ⟨_, _, .of_byte 14 (by decide) rfl (fun _ b => .nat (u8 b)) fun _ _ => rfl⟩,
    ⟨_, _, .hpBsamples⟩,
    ⟨_, _, .of_byte 17 (by decide) rfl (fun _ b => .nat (u8 b)) fun _ _ => rfl⟩,
    ⟨_, _, .hpFlen⟩,
    ⟨_, _, .of_raw 18 8 rfl (by decide) fun _ _ => rfl⟩,
    ⟨_, _, .of_raw 26 7 rfl (by decide) fun _ _ => rfl⟩,
    ⟨_, _, .of_range 26 7 rfl (by decide) (fun _ b => .rational (batteryVolts (Config.battRaw b))) fun _ _ => rfl⟩,
    ⟨_, _, .of_range 26 7 rfl (by decide) (fun _ b => .rational (tempCelsius (Config.tempRaw b))) fun _ _ => rfl⟩,
    ⟨_, _, .of_raw 26 7 rfl (by decide) fun _ _ => rfl⟩,
    ⟨_, _, .of_raw 33 20 rfl (by decide) fun _ _ => rfl⟩,
    ⟨_, _, .of_range 33 20 rfl (by decide) (fun _ b => .gpsFix (Config.gpsFix b)) fun _ _ => rfl⟩,
    ⟨_, _, .of_range 33 20 rfl (by decide) (fun _ b => .gpsAge (ageClass b (Config.gpsAgeSeconds b))) fun _ _ => rfl⟩,
    ⟨_, _, .of_byte 53 (by decide) rfl (fun _ b => .posDisc (u8 b) (posClass (u8 b))) fun _ _ => rfl⟩,
    ⟨_, _, .of_raw 54 23 rfl (by decide) fun _ _ => rfl⟩,
    ⟨_, _, .of_raw 77 3 rfl (by decide) fun _ _ => rfl⟩,
    ⟨_, _, .of_byte 13 (by decide) rfl (fun s b =>
      .interval (s.cfg.intervalLut.lookup (b.getLsbD 7) (b.getLsbD 4))
        (1000 / s.cfg.intervalLut.lookup (b.getLsbD 7) (b.getLsbD 4))) fun _ _ => rfl⟩,
    fun _ h => nomatch h⟩

/-- Settles O42: every accessor looks at the view's header, and a short view shows none. -/
theorem accessorsNeedEightyBytes : Obligations.AccessorsNeedEightyBytes := by
  intro mk v s hmk hshort
  obtain ⟨_, _, hreads⟩ := exists_readsField mk hmk
  obtain ⟨ret, hexec, -⟩ := hreads.answer s
  rw [hexec, withHeader, viewHeader, headerOf_eq_none.mpr hshort]

/-- Settles O43: the two headers agree on the accessor's field, which lies inside the 80 bytes. -/
theorem accessorsReadOnlyTheirField : Obligations.AccessorsReadOnlyTheirField := by
  intro mk f g s off width hmk hfield hf hg hagree
  obtain ⟨_, _, hreads⟩ := exists_readsField mk hmk
  cases hreads.hdrField_eq.symm.trans hfield
  obtain ⟨h, hh, hv⟩ := exists_header_of_view (v := .bytes f) (s := s) rfl hf
  obtain ⟨h', hh', hv'⟩ := exists_header_of_view (v := .bytes g) (s := s) rfl hg
  obtain ⟨ret, hexec, hret⟩ := hreads.answer s
  have hrange : h.range off width = h'.range off width := by
    rw [headerOf_range hh hreads.bound, headerOf_range hh' hreads.bound]
    exact hagree
  rw [hexec, hexec, withHeader_of_view hv (hret h h' hrange), withHeader_of_view hv' rfl]

end Sys2Proof.Machine
end

section
/-! DX and CP given one operation at a time (spec 42_sample_demux, 43_channel_parallel): the loads, the checks, the collects and
the hand-over. -/

namespace Sys2Proof.Machine

open Sys2Proof

/-! ### The loads (R198, R200) -/

theorem memRead_of_lt {f : Bytes} {a n : Nat} (h : f.length < a + n) : memRead f a n = none := if_neg h.not_ge

theorem exec_dxLoad3_of_some {f : Bytes} {a : Nat} {u : BitVec 24} (h : load3 f a = some u) (s : State) :
    exec (.dxLoad3 f a) s = .next { s with ret := .raw24 u } := by
  simp only [exec, execDxLoad3, h]

theorem exec_dxLoad4_of_some {f : Bytes} {a : Nat} {v : Sample} {s : State} (h : load4 s.cfg.nativeOrder f a = some v) :
    exec (.dxLoad4 f a) s = .next { s with ret := .sample v } := by
  simp only [exec, execDxLoad4, h]

theorem toNat_u24Msb (b0 b1 b2 : Byte) :
    (u24Msb b0 b1 b2).toNat = 65536 * b0.toNat + 256 * b1.toNat + b2.toNat := by
  rw [u24Msb_eq_append, toNat_append_byte, toNat_append_byte]
  omega

/-- Settles O45: three bytes inside the frame are a 24-bit number; bytes outside it are not read. -/
theorem threeByteLoad : Obligations.ThreeByteLoad := by
  refine fun f a s => ⟨fun hin => ⟨_, exec_dxLoad3_of_some (load3_of_le hin) s, toNat_u24Msb _ _ _⟩, fun hout => ?_⟩
  have hnone : load3 f a = none := by rw [load3, memRead_of_lt hout]
  simp only [exec, execDxLoad3, hnone]

theorem u32Native_lt (o : ByteOrder) (b0 b1 b2 b3 : Byte) : u32Native o b0 b1 b2 b3 < 2 ^ 32 := by
  have h0 := b0.isLt
  have h1 := b1.isLt
  have h2 := b2.isLt
  have h3 := b3.isLt
  cases o <;> simp only [u32Native, u8] <;> omega

/-- R10: the two's complement value of the unsigned image. -/
theorem s32Native_toInt (o : ByteOrder) (b0 b1 b2 b3 : Byte) :
    (s32Native o b0 b1 b2 b3).toInt =
      if u32Native o b0 b1 b2 b3 < 2 ^ 31 then (u32Native o b0 b1 b2 b3 : Int)
      else (u32Native o b0 b1 b2 b3 : Int) - 2 ^ 32 := by
  rw [BitVec.toInt_eq_toNat_cond, s32Native, BitVec.toNat_ofNat, Nat.mod_eq_of_lt (u32Native_lt o b0 b1 b2 b3)]
  split_ifs <;> omega

/-- Settles O46: the image is the primitive's, in either order; bytes outside the frame are not read. -/
theorem fourByteLoad : Obligations.FourByteLoad := by
  refine fun f a s => ⟨fun hin => ?inside, fun hout => ?outside⟩
  case inside =>
    refine ⟨_, u32Native s.cfg.nativeOrder (byteAt f a) (byteAt f (a + 1)) (byteAt f (a + 2)) (byteAt f (a + 3)),
      exec_dxLoad4_of_some (load4_of_le _ hin), fun ho => ?_, fun ho => ?_, fun hlt => ?_, fun hge => ?_⟩
    · rw [ho]; rfl
    · rw [ho]; rfl
    · rw [s32Native_toInt, if_pos hlt]
    · rw [s32Native_toInt, if_neg hge.not_gt]
  case outside =>
    have hnone : load4 s.cfg.nativeOrder f a = none := by rw [load4, memRead_of_lt hout]
    simp only [exec, execDxLoad4, hnone]

/-! ### The checks (R191) -/

theorem exec_dxCheck_of_failure {f : Bytes} {s : State} {c : ErrCause} (hfail : failureOf s.cfg f = some c) :
    exec (.dxCheck f) s = .next { raise c s with ret := .checked (some c) } := by
  simp only [exec, execDxCheck, checkFrame_of_failure hfail]

theorem exec_dxCheck_of_accepted {f : Bytes} {s : State} {h : Header} (hok : checkFrame s.cfg f = .ok h) :
    exec (.dxCheck f) s = .next { s with dx := some (startRegs s.cfg f h), ret := .checked none } := by
  simp only [exec, execDxCheck, hok]

/-- R190: the registers that a transcode starts with, from the frame's bytes. -/
theorem startRegs_eq {f : Bytes} {h : Header} (hh : headerOf f = some h) (cfg : Config) :
    startRegs cfg f h =
      { f := f, w := widthOf cfg f, en := BitVec.ofNat 6 (byteAt f 14).toNat, bs := bsOf cfg f, sb := sbOf f,
        ch := Vector.replicate 6 [] } := by
  rw [startRegs, headerOf_width hh, headerOf_en hh, headerOf_blockSamples hh, headerOf_sampleBytes hh]

/-- Settles O48: the model's checks are those of the frame's bytes, and a passing one opens the transcode's registers. -/
theorem checksInTheirOrder : Obligations.ChecksInTheirOrder := by
  refine fun f s => ⟨fun c hfail => exec_dxCheck_of_failure hfail, fun hpass => ?_⟩
  obtain ⟨h, hh, hok⟩ := exists_accepted_header hpass
  rw [exec_dxCheck_of_accepted hok, startRegs_eq hh]

/-! ### Addresses of different samples (R204) -/

/-- Bytes inside a slot end before the next slot's begin. -/
theorem sampleAddr_add_le_of_lt {k m sb off off' n : Nat} (hkm : k < m) (hoff : off + n ≤ sb) :
    sampleAddr k sb off + n ≤ sampleAddr m sb off' :=
  (sampleAddr_add_le hkm hoff).trans (Nat.le_add_right _ _)

/-- Inside a slot a channel's bytes end before a higher channel's begin. -/
theorem channelOffset_add_le_of_lt {en : BitVec 6} {c d : Channel} (w : Width) (hc : chEn en c = true) (hcd : c < d) :
    channelOffset en w c + w.bytes ≤ channelOffset en w d :=
  calc channelOffset en w c + w.bytes
    _ = w.bytes * (enabledBelow en c.val + 1) := by rw [channelOffset_eq, Nat.mul_succ]
    _ ≤ w.bytes * enabledBelow en d.val := Nat.mul_le_mul_left _ (enabledBelow_lt hc hcd)
    _ = channelOffset en w d := (channelOffset_eq en w d).symm

theorem sampleAddr_add_le_of_offset {k sb off off' n : Nat} (h : off + n ≤ off') :
    sampleAddr k sb off + n ≤ sampleAddr k sb off' := by
  simp only [sampleAddr]; omega

/-- Settles O53: samples of different slots are apart because a channel's bytes lie inside its slot (check 4), those of one
slot because the enabled channels' bytes follow one another. -/
theorem samplesNeverOverlap : Obligations.SamplesNeverOverlap := by
  rintro cfg f h c d k m _ _ hok hc hd - - hne rfl rfl
  obtain ⟨-, -, -, hslot, -⟩ := checkFrame_eq_ok_iff.mp hok
  have hfits {e : Channel} (he : chEn h.en e = true) :
      channelOffset h.en (h.width cfg) e + (h.width cfg).bytes ≤ h.sampleBytes :=
    (channelOffset_add_bytes_le _ he).trans hslot
  rcases lt_trichotomy k m with hkm | rfl | hmk
  · exact .inl (sampleAddr_add_le_of_lt hkm (hfits hc))
  · rcases lt_trichotomy c d with hcd | rfl | hdc
    · exact .inl (sampleAddr_add_le_of_offset (channelOffset_add_le_of_lt _ hc hcd))
    · exact absurd rfl hne
    · exact .inr (sampleAddr_add_le_of_offset (channelOffset_add_le_of_lt _ hd hdc))
  · exact .inr (sampleAddr_add_le_of_lt hmk (hfits hd))

/-! ### Collecting and handing over (R220, R222) -/

theorem exec_cpCollect_of_selected {c : Channel} {slot : Nat} {v : Sample} {s : State} {r : DxRegs} (hdx : s.dx = some r)
    (hc : chEn r.en c = true) (hbs : slot < r.bs) (hslot : slot = r.ch[c.val].length) :
    exec (.cpCollect c slot v) s = .next { s with dx := some (collect c v r) } := by
  simp only [exec, execCpCollect, hdx]
  exact if_pos ⟨hc, hbs, hslot⟩

/-- Settles O55: the collect writes one lane of the registers. -/
theorem collectStoresInItsLane : Obligations.CollectStoresInItsLane := by
  intro c slot v s r hdx hc hbs hslot
  refine ⟨collect c v r, exec_cpCollect_of_selected hdx hc hbs hslot, Vector.getElem_set_self _, fun d hd => ?_,
    rfl, rfl, rfl, rfl, rfl⟩
  exact Vector.getElem_set_ne c.isLt d.isLt (Fin.val_ne_of_ne hd.symm)

/-- R221: complete means `BS` samples in every enabled lane. -/
theorem lanesComplete_iff {r : DxRegs} :
    lanesComplete r = true ↔ ∀ c : Channel, chEn r.en c = true → r.ch[c.val].length = r.bs := by
  simp [lanesComplete, imp_iff_not_or]

theorem exec_cpOut_of_complete {f : Bytes} {s : State} {r : DxRegs} {h : Header} (hdx : s.dx = some r)
    (hok : checkFrame s.cfg f = .ok h) (hf : r.f = f) (hlanes : lanesComplete r = true) :
    exec (.cpOut f) s = .next (handOver h r s) := by
  simp only [exec, execCpOut, hdx, hok]
  exact if_pos ⟨hf, hlanes⟩

theorem mem_lanesOf {r : DxRegs} {c : Channel} {lane : List Sample} :
    (c, lane) ∈ lanesOf r ↔ chEn r.en c = true ∧ lane = r.ch[c.val] := by
  simp only [lanesOf, List.mem_map, List.mem_filter, List.mem_finRange, true_and, Prod.mk.injEq]
  constructor
  · rintro ⟨_, hc, rfl, rfl⟩
    exact ⟨hc, rfl⟩
  · rintro ⟨hc, rfl⟩
    exact ⟨c, hc, rfl, rfl⟩

/-- Settles O56: the record is that of the frame's header and the registers' lanes. -/
theorem handOverAndRestart : Obligations.HandOverAndRestart := by
  refine ⟨fun f s r hdx hf hpass hlanes => ?_, fun s => rfl⟩
  obtain ⟨h, hh, hok⟩ := exists_accepted_header hpass
  exact ⟨sampleRecord s.cfg h s.fseq (lanesOf r), exec_cpOut_of_complete hdx hok hf (lanesComplete_iff.mpr hlanes), rfl,
    (headerOf_eq_some.mp hh).2, headerOf_width hh s.cfg, headerOf_en hh, headerOf_blockSamples hh s.cfg,
    headerOf_range hh (by decide), headerOf_intervalMs hh s.cfg, fun c lane => mem_lanesOf⟩

end Sys2Proof.Machine
end

section
/-! R190: the transcode as its micro-operations given one by one. -/

namespace Sys2Proof.Machine

open Sys2Proof

theorem runInstrs_cons_of_next {i : Instr} {is : List Instr} {s t : State} (h : exec i s = .next t) :
    runInstrs (i :: is) s = runInstrs is t := by
  simp only [runInstrs, h]

theorem runInstrs_append_of_next {is js : List Instr} {s t : State} (h : runInstrs is s = .next t) :
    runInstrs (is ++ js) s = runInstrs js t := by
  induction is generalizing s with
  | nil => rw [Host.Outcome.next.inj h]; rfl
  | cons i is ih =>
    cases hi : exec i s with
    | next u =>
      rw [runInstrs_cons_of_next hi] at h
      rw [List.cons_append, runInstrs_cons_of_next hi, ih h]
    | fault f => simp [runInstrs, hi] at h
    | refused r => simp [runInstrs, hi] at h

/-- The collects of the first `n` samples of channel `c`, in the order of their indices (R195). -/
def collectsOf (cfg : Config) (f : Bytes) (n : Nat) (c : Channel) : List Instr :=
  (List.range n).map fun k => .cpCollect c k (sampleOf cfg f c k)

theorem transcodeProgram_eq (cfg : Config) (f : Bytes) :
    transcodeProgram cfg f =
      .dxCheck f :: ((channelsOf f).flatMap (collectsOf cfg f (bsOf cfg f)) ++ [.cpOut f]) := rfl

/-- The state between the operations of a transcode: its registers with the lanes collected so far. -/
def transcoding (s : State) (h : Header) (f : Bytes) (lanes : Channel → List Sample) : State :=
  { s with dx := some (withLanes (startRegs s.cfg f h) lanes), ret := .checked none }

theorem withLanes_lane (r : DxRegs) (lanes : Channel → List Sample) (c : Channel) :
    (withLanes r lanes).ch[c.val] = lanes c := by
  simp [withLanes]

/-- The lanes are the same whether disabled channels are gone through or left out. -/
theorem lanesAfter_channelsOf (cfg : Config) (f : Bytes) :
    lanesAfter cfg f (channelsOf f) = lanesAfter cfg f (List.finRange 6) := by
  funext d
  simp [lanesAfter, channelsOf]

section

variable {s : State} {f : Bytes} {h : Header} (hh : headerOf f = some h)
include hh

/-- A collect of an enabled channel's next sample lengthens that lane. -/
theorem exec_cpCollect_transcoding {c : Channel} (hc : enabledIn f c = true) {lanes : Channel → List Sample} {k : Nat}
    (hk : k < bsOf s.cfg f) (hlane : (lanes c).length = k) (v : Sample) :
    exec (.cpCollect c k v) (transcoding s h f lanes) =
      .next (transcoding s h f (Function.update lanes c (lanes c ++ [v]))) := by
  have hbs : k < h.blockSamples s.cfg := by rwa [headerOf_blockSamples hh]
  have hslot : k = (withLanes (startRegs s.cfg f h) lanes).ch[c.val].length := by rw [withLanes_lane, hlane]
  rw [exec_cpCollect_of_selected (s := transcoding s h f lanes) rfl ((headerOf_chEn hh c).trans hc) hbs hslot,
    collect_withLanes]
  rfl

/-- The collects of an enabled channel with an empty lane fill it with its samples. -/
theorem runInstrs_collectsOf {c : Channel} (hc : enabledIn f c = true) {lanes : Channel → List Sample}
    (hempty : lanes c = []) (n : Nat) (hn : n ≤ bsOf s.cfg f) :
    runInstrs (collectsOf s.cfg f n c) (transcoding s h f lanes) =
      .next (transcoding s h f (Function.update lanes c ((List.range n).map (sampleOf s.cfg f c)))) := by
  induction n with
  | zero => rw [List.range_zero, List.map_nil, ← hempty, Function.update_eq_self]; rfl
  | succ n ih =>
    have hlane : (Function.update lanes c ((List.range n).map (sampleOf s.cfg f c)) c).length = n := by simp
    have hnext := exec_cpCollect_transcoding hh hc hn hlane (sampleOf s.cfg f c n)
    calc runInstrs (collectsOf s.cfg f (n + 1) c) (transcoding s h f lanes)
      _ = runInstrs (collectsOf s.cfg f n c ++ [.cpCollect c n (sampleOf s.cfg f c n)]) (transcoding s h f lanes) := by
        rw [collectsOf, List.range_succ, List.map_append]; rfl
      _ = .next (transcoding s h f (Function.update lanes c ((List.range (n + 1)).map (sampleOf s.cfg f c)))) := by
        rw [runInstrs_append_of_next (ih (by omega)), runInstrs_cons_of_next hnext, Function.update_idem,
          Function.update_self, List.range_succ, List.map_append]
        rfl

/-- The collects of enabled channels, none twice, complete their lanes. -/
theorem runInstrs_flatMap_collectsOf {cs : List Channel} (hnodup : cs.Nodup)
    (hen : ∀ c ∈ cs, enabledIn f c = true) :
    runInstrs (cs.flatMap (collectsOf s.cfg f (bsOf s.cfg f))) (transcoding s h f (lanesAfter s.cfg f [])) =
      .next (transcoding s h f (lanesAfter s.cfg f cs)) := by
  induction cs using List.reverseRecOn with
  | nil => rfl
  | append_singleton cs c ih =>
    obtain ⟨hc, hcs⟩ := (List.nodup_concat cs c).mp (List.concat_eq_append ▸ hnodup)
    have hbefore := ih hcs fun d hd => hen d (List.mem_append_left _ hd)
    have henc : enabledIn f c = true := hen c (List.mem_append_right _ List.mem_cons_self)
    rw [List.flatMap_append, runInstrs_append_of_next hbefore, List.flatMap_singleton,
      runInstrs_collectsOf hh henc (lanesAfter_of_not_mem hc) _ le_rfl, lanesAfter_concat_of_enabled henc]
    rfl

/-- R221: when every enabled channel has been gone through, the lanes are complete. -/
theorem lanesComplete_withLanes (cfg : Config) :
    lanesComplete (withLanes (startRegs cfg f h) (lanesAfter cfg f (channelsOf f))) = true := by
  refine lanesComplete_iff.mpr fun c hc => ?_
  have henc : enabledIn f c = true := (headerOf_chEn hh c).symm.trans hc
  have hmem : c ∈ channelsOf f := List.mem_filter.mpr ⟨List.mem_finRange c, henc⟩
  rw [withLanes_lane, lanesAfter, if_pos ⟨hmem, henc⟩, decodedLane, List.length_map, List.length_range]
  exact (headerOf_blockSamples hh cfg).symm

end

/-- Settles O57: the check opens the registers, the collects leave the lanes that the two loops leave, and the hand-over is
that of the transcode. -/
theorem transcodeIsItsMicroOps : Obligations.TranscodeIsItsMicroOps := by
  intro f s t hpass ht
  obtain ⟨h, hh, hok⟩ := exists_accepted_header hpass
  obtain rfl : transcode f s = t := Host.Outcome.next.inj ht
  have hcheck : exec (.dxCheck f) s = .next (transcoding s h f (lanesAfter s.cfg f [])) := by
    rw [exec_dxCheck_of_accepted hok, startRegs_eq_withLanes]; rfl
  have hcollects := runInstrs_flatMap_collectsOf (s := s) (cs := channelsOf f) hh ((List.nodup_finRange 6).filter _)
    fun c hc => List.of_mem_filter hc
  have hout := exec_cpOut_of_complete (s := transcoding s h f _) rfl hok rfl (lanesComplete_withLanes hh s.cfg)
  rw [transcodeProgram_eq, runInstrs_cons_of_next hcheck, runInstrs_append_of_next hcollects,
    runInstrs_cons_of_next hout, transcode_of_accepted hok, demuxFrame,
    foldl_demuxChannel hh hok (List.nodup_finRange 6), ← lanesAfter_channelsOf]
  rfl

end Sys2Proof.Machine
end

section
/-! R84, R94, R89: the bits of a frame that no transcode reads, but for the header copy, the raw time and the interval. -/

namespace Sys2Proof.Machine

open Sys2Proof

/-- The two frames agree on all that the lanes and the checks read: the marker, ConfigWord bit 7, ChannelBitMap bits 5:0,
BlockSamples, SampleBytes, and everything from offset 80 on. -/
structure AgreeForDx (f g : Bytes) : Prop where
  marker : f.take 12 = g.take 12
  widthBit : bitOf (byteAt f 13) 7 = bitOf (byteAt g 13) 7
  mask : (byteAt f 14).toNat % 64 = (byteAt g 14).toNat % 64
  bsLow : byteAt f 15 = byteAt g 15
  bsHigh : byteAt f 16 = byteAt g 16
  slot : byteAt f 17 = byteAt g 17
  body : f.drop 80 = g.drop 80
  length : f.length = g.length

namespace AgreeForDx

variable {f g : Bytes} (hfg : AgreeForDx f g)
include hfg

theorem widthOf_eq (cfg : Config) : widthOf cfg f = widthOf cfg g := by
  rw [widthOf, widthOf, hfg.widthBit]

theorem bsOf_eq (cfg : Config) : bsOf cfg f = bsOf cfg g := by
  rw [bsOf, bsOf, hfg.bsLow, hfg.bsHigh]

theorem sbOf_eq : sbOf f = sbOf g := by
  rw [sbOf, sbOf, hfg.slot]

/-- R86: the six bits of the mask are the value modulo 64. -/
theorem en_eq : BitVec.ofNat 6 (byteAt f 14).toNat = BitVec.ofNat 6 (byteAt g 14).toNat :=
  BitVec.eq_of_toNat_eq (by rw [BitVec.toNat_ofNat, BitVec.toNat_ofNat]; exact hfg.mask)

theorem enabledIn_eq : enabledIn f = enabledIn g := by
  funext c
  have hbit (b : Byte) : bitOf b c.val = (BitVec.ofNat 6 b.toNat).getLsbD c.val := by
    rw [BitVec.getLsbD_ofNat, decide_eq_true c.isLt, Bool.true_and, ← getLsbD_eq_bitOf]
    rfl
  rw [enabledIn, enabledIn, hbit, hbit, hfg.en_eq]

theorem channelsOf_eq : channelsOf f = channelsOf g := by
  rw [channelsOf, channelsOf, hfg.enabledIn_eq]

theorem byteAt_eq {a : Nat} (ha : 80 ≤ a) : byteAt f a = byteAt g a := by
  have hget (x : Bytes) : byteAt x a = byteAt (x.drop 80) (a - 80) := by
    simp [byteAt, Nat.add_sub_cancel' ha]
  rw [hget f, hget g, hfg.body]

theorem failureOf_eq (cfg : Config) : failureOf cfg f = failureOf cfg g := by
  rw [failureOf, failureOf, widthBytesOf, widthBytesOf, hfg.length, hfg.marker, hfg.bsOf_eq, hfg.sbOf_eq,
    hfg.channelsOf_eq, hfg.widthOf_eq]

theorem decodedAt_eq (cfg : Config) {a : Nat} (ha : 80 ≤ a) : decodedAt cfg f a = decodedAt cfg g a := by
  rw [decodedAt, decodedAt, hfg.widthOf_eq, hfg.byteAt_eq ha, hfg.byteAt_eq (a := a + 1) (by omega),
    hfg.byteAt_eq (a := a + 2) (by omega), hfg.byteAt_eq (a := a + 3) (by omega)]

/-- R221: every sample is decoded from bytes of the body. -/
theorem sampleOf_eq (cfg : Config) : sampleOf cfg f = sampleOf cfg g := by
  funext c k
  have hoff : offsetOf cfg f c = offsetOf cfg g c := by
    rw [offsetOf, offsetOf, widthBytesOf, widthBytesOf, hfg.widthOf_eq, hfg.channelsOf_eq]
  rw [sampleOf, sampleOf, hoff, hfg.sbOf_eq, hfg.decodedAt_eq cfg (by omega)]

theorem decodedLane_eq (cfg : Config) : decodedLane cfg f = decodedLane cfg g := by
  funext c
  rw [decodedLane, decodedLane, hfg.bsOf_eq, hfg.sampleOf_eq]

end AgreeForDx

/-- R222: the record of a frame that passes the checks, with its lanes read off the frame's bytes. -/
theorem transcode_of_passes {f : Bytes} {s : State} (hpass : failureOf s.cfg f = none) :
    ∃ h, headerOf f = some h ∧ (transcode f s).fseq = s.fseq + 1 ∧ (transcode f s).out = s.out ++
      [.samples (sampleRecord s.cfg h s.fseq ((channelsOf f).map fun c => (c, decodedLane s.cfg f c)))] := by
  obtain ⟨h, hh, hok⟩ := exists_accepted_header hpass
  refine ⟨h, hh, ?fseq, ?out⟩
  case fseq => rw [transcode_of_accepted hok, handOver_fseq]
  case out => rw [transcode_of_accepted hok, handOver_out, lanesOf_demuxFrame hh hok]

/-- Settles O54: two frames that agree fail the same check, or both pass and the elements named are read off what they agree
on. -/
theorem reservedBitsDoNotMatter : Obligations.ReservedBitsDoNotMatter := by
  intro f g s t u hmarker hwidth hmask hlow hhigh hslot hbody hlength ht hu
  have hfg : AgreeForDx f g := ⟨hmarker, hwidth, hmask, hlow, hhigh, hslot, hbody, hlength⟩
  obtain rfl : transcode f s = t := Host.Outcome.next.inj ht
  obtain rfl : transcode g s = u := Host.Outcome.next.inj hu
  cases hf : failureOf s.cfg f with
  | some c =>
    have hg : failureOf s.cfg g = some c := hfg.failureOf_eq s.cfg ▸ hf
    rw [transcode_of_failure hf, transcode_of_failure hg]
    exact ⟨rfl, fun _ _ h => h, fun r h => ⟨r, h, rfl, rfl, rfl, rfl, rfl⟩⟩
  | none =>
    obtain ⟨h, hh, hfseq, hout⟩ := transcode_of_passes hf
    obtain ⟨h', hh', hfseq', hout'⟩ := transcode_of_passes (hfg.failureOf_eq s.cfg ▸ hf)
    refine ⟨hfseq.trans hfseq'.symm, fun c x herr => ?_, fun r hr => ?_⟩
    · exact nomatch List.singleton_inj.mp (List.append_cancel_left (hout.symm.trans herr))
    · obtain rfl := Event.samples.inj (List.singleton_inj.mp (List.append_cancel_left (hout.symm.trans hr)))
      refine ⟨_, hout', ?lanes, ?fseq, ?width, ?mask, ?blockSamples⟩
      case lanes => simp only [sampleRecord, hfg.channelsOf_eq, hfg.decodedLane_eq]
      case fseq => simp only [sampleRecord]
      case width => simp only [sampleRecord, headerOf_width hh, headerOf_width hh', hfg.widthOf_eq]
      case mask => simp only [sampleRecord, headerOf_en hh, headerOf_en hh', hfg.en_eq]
      case blockSamples => simp only [sampleRecord, headerOf_blockSamples hh, headerOf_blockSamples hh', hfg.bsOf_eq]

end Sys2Proof.Machine
end
